-- ==== Sys2Proof/Word.lean ====
section
/-! DEFINITION. The word types of CIFE: the widths that 00_scope.md rules R5 and R6 and 10_state.md
rule R36 fix. Bit 0 of every bit vector is the least significant bit (rule R6). -/

namespace Sys2Proof

/-- `u8`: one color channel or one frame byte (rules R5, R6). -/
abbrev Byte := BitVec 8

/-- A 32-bit register word, `REG_W` of rule R5: what one host access carries. -/
abbrev Word := BitVec 32

/-- `u24`: a packed color `0xRRGGBB` (rules R9, R24). -/
abbrev Rgb := BitVec 24

/-- The largest legal `STEP_W` (rule R5: legal 1..24). -/
abbrev stepWMax : Nat := 24

/-- Storage of STEP and TOTAL at the largest legal `STEP_W`. The register holds `STEP_W` bits; the bits
above are zero in every reachable state (`Safety.lean`, `State.StepFieldsFit`). -/
abbrev StepVal := BitVec 24

/-- `u4`: the four sticky flags, or a cause code (rule R36). -/
abbrev Nibble := BitVec 4

/-- The host access word of 30_encoding.md rule R71, 43 bits. -/
abbrev Haw := BitVec 43

/-- The frame: exactly `FRAME_BYTES` = 12 bytes, byte 0 first (rules R5, R29, R141). -/
abbrev Frame := Vector Byte 12

end Sys2Proof
end

