-- ==== Sys2Proof/Config.lean ====
section
/-! DEFINITION. What an implementation of CIFE fixes: the parameters `STEP_W` and `BASE` of 00_scope.md
rule R5 (10_state.md rule R20: "Configuration, not state"). -/

namespace Sys2Proof

/-- The configuration a machine is built with. `STEP_W` is "a model argument" (rule R5, decision D3). It is
carried in `State.config`, no step changes it, and a statement about every state therefore holds for every
value of it. DESIGN CHOICE, safe: notes/assumptions/1.md. -/
structure Config where
  /-- `STEP_W`, the width in bits of STEP and TOTAL. -/
  stepW : Nat
  deriving DecidableEq, Repr

/-- The legal configurations: `STEP_W` is 1..24 (rule R5, decision D3). -/
abbrev Config.Legal (c : Config) : Prop := 1 ≤ c.stepW ∧ c.stepW ≤ stepWMax

/-- "This hardware takes `STEP_W = 16`" (decision D3). -/
def Config.thisHardware : Config := { stepW := 16 }

/-- `WINDOW_BYTES` (rule R5, rule R51). -/
abbrev Config.windowBytes : Nat := 256

/-- Which 256-byte block of the host's address space the window is. `BASE` is OPEN (rule R51, decision D6),
so this is a free value: nothing can evaluate it. DESIGN CHOICE, safe: notes/assumptions/2.md. -/
opaque Config.baseBlock : Nat

/-- `BASE`, "a multiple of 256" (rules R5, R51). -/
def Config.base : Nat := Config.windowBytes * Config.baseBlock

end Sys2Proof
end

