-- ==== Sys2Proof/Syntax.lean ====
section
/-! DEFINITION. The syntax of CIFE: registers, the 20 operations of 30_encoding.md rule R76, error causes, the
result of decoding, what can reach the block from outside, and the host assembly lines of rules R80 and R81. -/

namespace Sys2Proof

/-- The registers of the register map (10_state.md rule R21), in ascending offset. -/
inductive Reg where
  | cmd | status | start | endc | step | total | color | frame0 | frame1 | frame2
  deriving DecidableEq, Repr

/-- The operations of CIFE, one constructor per row of the opcode table (30_encoding.md rule R76). A read has no
operand: its DATA is ignored (rules R75, R79). A register write carries the whole DATA word; its meaning takes
the bits rule R75 names. A command carries nothing beyond its CMD word (rule R74). -/
inductive Instr where
  /-- RD_CMD (rule R101) -/
  | rdCmd
  /-- RD_STATUS (rule R102) -/
  | rdStatus
  /-- RD_START (rule R104) -/
  | rdStart
  /-- RD_END (rule R106) -/
  | rdEnd
  /-- RD_STEP (rule R108) -/
  | rdStep
  /-- RD_TOTAL (rule R110) -/
  | rdTotal
  /-- RD_COLOR (rule R112) -/
  | rdColor
  /-- RD_FRAME0 (rule R114) -/
  | rdFrame0
  /-- RD_FRAME1 (rule R115) -/
  | rdFrame1
  /-- RD_FRAME2 (rule R116) -/
  | rdFrame2
  /-- WR_STATUS (rule R103) -/
  | wrStatus (data : Word)
  /-- WR_START (rule R105) -/
  | wrStart (data : Word)
  /-- WR_END (rule R107) -/
  | wrEnd (data : Word)
  /-- WR_STEP (rule R109) -/
  | wrStep (data : Word)
  /-- WR_TOTAL (rule R111) -/
  | wrTotal (data : Word)
  /-- WR_COLOR (rule R113) -/
  | wrColor (data : Word)
  /-- NOP (rule R167) -/
  | nop
  /-- LERP (rule R165) -/
  | lerp
  /-- ENCODE (rule R144) -/
  | encode
  /-- LERP_ENC (rule R166) -/
  | lerpEnc
  deriving DecidableEq, Repr

/-- The four error causes (60_exceptions.md rules R201 to R204). -/
inductive ErrorCause where
  /-- cause 1: a LERP found TOTAL = 0 -/
  | totalZero
  /-- cause 2: a LERP found STEP > TOTAL -/
  | stepRange
  /-- cause 3: a CMD write had a reserved bit set -/
  | cmdReserved
  /-- cause 4: a bad width, alignment, offset or write to read-only -/
  | badAccess
  deriving DecidableEq, Repr

/-- What decoding a host access word yields: "one of the 20 operations or one error cause" (rule R73). -/
inductive Decoded where
  | op (i : Instr)
  | error (c : ErrorCause)
  deriving DecidableEq, Repr

/-- A color `(R,G,B)` (00_scope.md rule R9). -/
structure Color where
  r : Byte
  g : Byte
  b : Byte
  deriving DecidableEq, Repr

/-- What can reach the block from outside (rule R3, rule R247): "each step is one host access or one reset". -/
inductive HostInput where
  /-- One access at the host port, as its host access word (rule R71). -/
  | access (haw : Haw)
  /-- The reset input. An access that coincides with it is carried along and "treated as not performed"
  (70_reset_and_hazards.md rule R231). -/
  | reset (coinciding : Option Haw)
  deriving DecidableEq, Repr

/-- `<value>` of the host assembly (rule R80): a number, or a color operand `#RRGGBB` meaning `0xRRGGBB`. -/
inductive AsmValue where
  | num (n : Nat)
  | rgb (n : Nat)
  deriving DecidableEq, Repr

/-- A line of host assembly (rules R80, R81), as abstract syntax: `rd reg expect` is `RD <reg>` with its optional
recorded value `-> <value>`. -/
inductive AsmLine where
  | rd (reg : Reg) (expect : Option Word)
  | wr (reg : Reg) (value : AsmValue)
  | nop
  | lerp
  | encode
  | lerpEnc
  | comment (text : String)
  /-- `SETPAIR s, e` (rule R81) -/
  | setPair (s e : AsmValue)
  /-- `SHOW c` (rule R81) -/
  | showColor (c : AsmValue)
  /-- `STEPTO k` (rule R81) -/
  | stepTo (k : AsmValue)
  /-- `CLRERR` (rule R81) -/
  | clrErr
  deriving DecidableEq, Repr

end Sys2Proof
end

