-- ==== Sys2Proof/WellFormed.lean ====
section
/-! DEFINITION. Well-formedness of syntax. -/

namespace Sys2Proof

/-- Every operation is well formed: the one operand an operation can have is a 32-bit DATA word, and 30_encoding.md
rule R75 admits each of its values ("Ignored DATA bits are not an error"). The bound is in the type of the field,
so no check is left to make; the arms are written out so that a new constructor cannot slip past. -/
def Instr.wf : Instr → Bool
  | .rdCmd => true
  | .rdStatus => true
  | .rdStart => true
  | .rdEnd => true
  | .rdStep => true
  | .rdTotal => true
  | .rdColor => true
  | .rdFrame0 => true
  | .rdFrame1 => true
  | .rdFrame2 => true
  | .wrStatus _ => true
  | .wrStart _ => true
  | .wrEnd _ => true
  | .wrStep _ => true
  | .wrTotal _ => true
  | .wrColor _ => true
  | .nop => true
  | .lerp => true
  | .encode => true
  | .lerpEnc => true

/-- A value of the host assembly fits where it goes: a number in the 32 DATA bits (rule R71), a color operand in
`#RRGGBB` (rule R80). That a number above 32 bits is no assembly value is a DESIGN CHOICE, safe:
notes/assumptions/11.md. -/
def AsmValue.wf : AsmValue → Bool
  | .num n => decide (n < 2 ^ 32)
  | .rgb n => decide (n < 2 ^ 24)

/-- The registers `WR <reg>, <value>` may name: "STATUS, START, END, STEP, TOTAL, COLOR, CMD" (rule R80). -/
def Reg.asmWritable : Reg → Bool
  | .cmd => true
  | .status => true
  | .start => true
  | .endc => true
  | .step => true
  | .total => true
  | .color => true
  | .frame0 => false
  | .frame1 => false
  | .frame2 => false

/-- A line of host assembly is well formed (rules R80, R81). `WR CMD, v` with v above 3 is well formed: "it is not a
syntax error" (rule R80). -/
def AsmLine.wf : AsmLine → Bool
  | .rd _ _ => true
  | .wr reg v => reg.asmWritable && v.wf
  | .nop => true
  | .lerp => true
  | .encode => true
  | .lerpEnc => true
  | .comment _ => true
  | .setPair s e => s.wf && e.wf
  | .showColor c => c.wf
  | .stepTo k => k.wf
  | .clrErr => true

end Sys2Proof
end

