-- ==== Sys2Proof/Decode.lean ====
section
/-! DEFINITION. The host access word, the decoder (30_encoding.md rules R71 to R79), the encoder written from the same
table, the host's views of an access (40_host_access.md rule R100, 20_memory.md rule R51) and the assembler of rules
R80 and R81. -/

namespace Sys2Proof

/-! ### The fields of a host access word (rule R71) -/

/-- `SZ`, the access size as log2 of bytes. -/
def Haw.sz (haw : Haw) : BitVec 2 := haw.extractLsb' 41 2

/-- `WE`, 1 for a write. -/
def Haw.we (haw : Haw) : Bool := haw.getLsbD 40

/-- `OFF`, the byte offset in the window. -/
def Haw.off (haw : Haw) : Byte := haw.extractLsb' 32 8

/-- `DATA`, the write data. -/
def Haw.data (haw : Haw) : Word := haw.extractLsb' 0 32

/-- `HAW = hsize[1:0] ++ hwrite ++ haddr[7:0] ++ hwdata[31:0]` (rule R71). -/
def mkHaw (sz : BitVec 2) (we : Bool) (off : Byte) (data : Word) : Haw :=
  sz ++ BitVec.ofBool we ++ off ++ data

/-! ### The register map (10_state.md rule R21) -/

/-- The byte offset of a register from `BASE`. -/
def Reg.offset : Reg → Byte
  | .cmd => 0x00
  | .status => 0x04
  | .start => 0x08
  | .endc => 0x0C
  | .step => 0x10
  | .total => 0x14
  | .color => 0x18
  | .frame0 => 0x20
  | .frame1 => 0x24
  | .frame2 => 0x28

/-- The register at an offset; none at a reserved offset and at an offset inside a register's word. -/
def regAt (off : Byte) : Option Reg :=
  if off = 0x00 then some .cmd
  else if off = 0x04 then some .status
  else if off = 0x08 then some .start
  else if off = 0x0C then some .endc
  else if off = 0x10 then some .step
  else if off = 0x14 then some .total
  else if off = 0x18 then some .color
  else if off = 0x20 then some .frame0
  else if off = 0x24 then some .frame1
  else if off = 0x28 then some .frame2
  else none

/-! ### Decoding (rule R73) -/

/-- The read of a register. -/
def decodeRead : Reg → Instr
  | .cmd => .rdCmd
  | .status => .rdStatus
  | .start => .rdStart
  | .endc => .rdEnd
  | .step => .rdStep
  | .total => .rdTotal
  | .color => .rdColor
  | .frame0 => .rdFrame0
  | .frame1 => .rdFrame1
  | .frame2 => .rdFrame2

/-- The CMD word (rule R74): bits [31:2] are reserved and must be 0, bits [1:0] choose the operation. -/
def decodeCmd (d : Word) : Decoded :=
  if d.extractLsb' 2 30 = 0#30 then
    if d.extractLsb' 0 2 = 0b00#2 then .op .nop
    else if d.extractLsb' 0 2 = 0b01#2 then .op .lerp
    else if d.extractLsb' 0 2 = 0b10#2 then .op .encode
    else .op .lerpEnc
  else .error .cmdReserved

/-- The write of a register; FRAME is read-only. -/
def decodeWrite (d : Word) : Reg → Decoded
  | .cmd => decodeCmd d
  | .status => .op (.wrStatus d)
  | .start => .op (.wrStart d)
  | .endc => .op (.wrEnd d)
  | .step => .op (.wrStep d)
  | .total => .op (.wrTotal d)
  | .color => .op (.wrColor d)
  | .frame0 => .error .badAccess
  | .frame1 => .error .badAccess
  | .frame2 => .error .badAccess

/-- `decode` of rule R73, total on every 43-bit value. The width and alignment check comes first, then the offset,
then the CMD word (the priority of 60_exceptions.md rule R207). -/
def decode (haw : Haw) : Decoded :=
  if haw.sz = 0b10#2 ∧ haw.off.extractLsb' 0 2 = 0b00#2 then
    match regAt haw.off with
    | none => .error .badAccess
    | some r => if haw.we then decodeWrite haw.data r else .op (decodeRead r)
  else .error .badAccess

/-! ### Encoding (rule R76) -/

/-- A 32-bit read of a register. DATA is ignored by the decoder; the encoder gives it 0, as `MemRead` of rule R100
does. DEDUCED, safe: notes/assumptions/10.md. -/
def encodeRead (r : Reg) : Haw := mkHaw 0b10 false r.offset 0x00000000

/-- A 32-bit write of a register. -/
def encodeWrite (r : Reg) (d : Word) : Haw := mkHaw 0b10 true r.offset d

/-- The host access word of an operation (rule R76). -/
def encode : Instr → Haw
  | .rdCmd => encodeRead .cmd
  | .rdStatus => encodeRead .status
  | .rdStart => encodeRead .start
  | .rdEnd => encodeRead .endc
  | .rdStep => encodeRead .step
  | .rdTotal => encodeRead .total
  | .rdColor => encodeRead .color
  | .rdFrame0 => encodeRead .frame0
  | .rdFrame1 => encodeRead .frame1
  | .rdFrame2 => encodeRead .frame2
  | .wrStatus d => encodeWrite .status d
  | .wrStart d => encodeWrite .start d
  | .wrEnd d => encodeWrite .endc d
  | .wrStep d => encodeWrite .step d
  | .wrTotal d => encodeWrite .total d
  | .wrColor d => encodeWrite .color d
  | .nop => encodeWrite .cmd 0x00000000
  | .lerp => encodeWrite .cmd 0x00000001
  | .encode => encodeWrite .cmd 0x00000002
  | .lerpEnc => encodeWrite .cmd 0x00000003

/-- The `(match, mask)` pair of an operation's row, transcribed from opcode_table.json. Rule R76 gives the same
pairs. `decode` and `encode` do not use it: it is the independent listing that statements hold them against. -/
def Instr.tableRow : Instr → Haw × Haw
  | .rdCmd => (0x40000000000, 0x7FF00000000)
  | .rdStatus => (0x40400000000, 0x7FF00000000)
  | .rdStart => (0x40800000000, 0x7FF00000000)
  | .rdEnd => (0x40C00000000, 0x7FF00000000)
  | .rdStep => (0x41000000000, 0x7FF00000000)
  | .rdTotal => (0x41400000000, 0x7FF00000000)
  | .rdColor => (0x41800000000, 0x7FF00000000)
  | .rdFrame0 => (0x42000000000, 0x7FF00000000)
  | .rdFrame1 => (0x42400000000, 0x7FF00000000)
  | .rdFrame2 => (0x42800000000, 0x7FF00000000)
  | .wrStatus _ => (0x50400000000, 0x7FF00000000)
  | .wrStart _ => (0x50800000000, 0x7FF00000000)
  | .wrEnd _ => (0x50C00000000, 0x7FF00000000)
  | .wrStep _ => (0x51000000000, 0x7FF00000000)
  | .wrTotal _ => (0x51400000000, 0x7FF00000000)
  | .wrColor _ => (0x51800000000, 0x7FF00000000)
  | .nop => (0x50000000000, 0x7FFFFFFFFFF)
  | .lerp => (0x50000000001, 0x7FFFFFFFFFF)
  | .encode => (0x50000000002, 0x7FFFFFFFFFF)
  | .lerpEnc => (0x50000000003, 0x7FFFFFFFFFF)

/-- A host access word lies in an operation's row: `haw & mask = match`. -/
abbrev Instr.RowMatches (i : Instr) (haw : Haw) : Prop := haw &&& i.tableRow.2 = i.tableRow.1

/-- The operand an operation carries (rule R75): a register write carries DATA, every other operation nothing. -/
def Instr.carries : Instr → Option Word
  | .rdCmd => none
  | .rdStatus => none
  | .rdStart => none
  | .rdEnd => none
  | .rdStep => none
  | .rdTotal => none
  | .rdColor => none
  | .rdFrame0 => none
  | .rdFrame1 => none
  | .rdFrame2 => none
  | .wrStatus d => some d
  | .wrStart d => some d
  | .wrEnd d => some d
  | .wrStep d => some d
  | .wrTotal d => some d
  | .wrColor d => some d
  | .nop => none
  | .lerp => none
  | .encode => none
  | .lerpEnc => none

/-! ### The host's views of an access (rules R51, R100) -/

/-- The access word of `MemRead(BASE + off, 4)` (rule R100). -/
def memReadHaw (off : Byte) : Haw := mkHaw 0b10 false off 0x00000000

/-- The access word of `MemWrite(BASE + off, 4, v)` (rule R100). -/
def memWriteHaw (off : Byte) (v : Word) : Haw := mkHaw 0b10 true off v

/-- What a host bus access becomes at the block (rule R51): inside the window the block decodes only
`off = addr - BASE`; "everything outside the window is the platform's", so no access reaches the block. -/
def hawOfBus (addr : Nat) (sz : BitVec 2) (we : Bool) (data : Word) : Option Haw :=
  if Config.base ≤ addr ∧ addr < Config.base + Config.windowBytes then
    some (mkHaw sz we (BitVec.ofNat 8 (addr - Config.base)) data)
  else none

/-! ### The assembler (rules R80, R81) -/

/-- The DATA word of an assembly value. -/
def AsmValue.data : AsmValue → Word
  | .num n => BitVec.ofNat 32 n
  | .rgb n => BitVec.ofNat 32 n

/-- The accesses of an assembly line, in order. -/
def assemble : AsmLine → List Haw
  | .rd reg _ => [memReadHaw reg.offset]
  | .wr reg v => [memWriteHaw reg.offset v.data]
  | .nop => [memWriteHaw Reg.cmd.offset 0]
  | .lerp => [memWriteHaw Reg.cmd.offset 1]
  | .encode => [memWriteHaw Reg.cmd.offset 2]
  | .lerpEnc => [memWriteHaw Reg.cmd.offset 3]
  | .comment _ => []
  | .setPair s e => [memWriteHaw Reg.start.offset s.data, memWriteHaw Reg.endc.offset e.data]
  | .showColor c => [memWriteHaw Reg.color.offset c.data, memWriteHaw Reg.cmd.offset 2]
  | .stepTo k => [memWriteHaw Reg.step.offset k.data, memWriteHaw Reg.cmd.offset 3]
  | .clrErr => [memWriteHaw Reg.status.offset 0xF]

/-- The host accesses of a source text: its lines' accesses one after the other, as inputs of the block. -/
def assembleAll (lines : List AsmLine) : List HostInput :=
  (lines.flatMap assemble).map .access

/-- The lines an assembler should warn on (rule R80): "A `WR CMD, v` with v outside 0..3". -/
def AsmLine.warns : AsmLine → Bool
  | .rd _ _ => false
  | .wr reg v => decide (reg = .cmd ∧ 3 < v.data.toNat)
  | .nop => false
  | .lerp => false
  | .encode => false
  | .lerpEnc => false
  | .comment _ => false
  | .setPair _ _ => false
  | .showColor _ => false
  | .stepTo _ => false
  | .clrErr => false

/-! ### The opcode table's numbering -/

/-- The operation this decoder reads from an instruction whose bits are `w`. A host access word is 43 bits and the table
numbers them as rule R71 does, so `w` is the word itself; a set bit above bit 42 is no host access word. `nbits`
only says how many bits the caller wrote out. DESIGN CHOICE, safe: notes/assumptions/9.md. -/
def decodeTableWord (_nbits w : Nat) : Option Instr :=
  if w < 2 ^ 43 then
    match decode (BitVec.ofNat 43 w) with
    | .op i => some i
    | .error _ => none
  else none

end Sys2Proof
end

