-- ==== Sys2Proof/Machine/Operands.lean ====
section
/-! DEFINITION. Operand forms: how a DATA word becomes a register value (30_encoding.md rule R75), how a color is packed
and unpacked (00_scope.md rule R9), how frame bytes form host words (10_state.md rule R29) and how a register value
is widened for a read. No operand is sign-extended, scaled or shifted. -/

namespace Sys2Proof.Machine

/-- `pack(R,G,B)` as the 24-bit register value `0xRRGGBB` (rule R9). -/
def pack (c : Color) : Rgb := c.r ++ c.g ++ c.b

/-- `unpack(v) = (v[23:16], v[15:8], v[7:0])` (rule R9). -/
def unpack (v : Rgb) : Color :=
  { r := v.extractLsb' 16 8, g := v.extractLsb' 8 8, b := v.extractLsb' 0 8 }

/-- WR_START, WR_END and WR_COLOR take `DATA[23:0]` (rule R75). -/
def colorOperand (d : Word) : Rgb := d.extractLsb' 0 24

/-- WR_STEP and WR_TOTAL take `DATA[STEP_W-1:0]` (rule R75), here at the storage width. -/
def stepOperand (stepW : Nat) (d : Word) : StepVal := (d.setWidth stepW).setWidth 24

/-- WR_STATUS takes `DATA[3:0]` as a clear mask (rule R75). -/
def clearMask (d : Word) : Nibble := d.extractLsb' 0 4

/-- `zext_32` of a color register (rules R104, R106, R112). -/
def colorWord (v : Rgb) : Word := v.setWidth 32

/-- `zext_32` of STEP or TOTAL (rules R108, R110). -/
def stepWord (v : StepVal) : Word := v.setWidth 32

/-- `FRAME0 = FRAME[3] ++ FRAME[2] ++ FRAME[1] ++ FRAME[0]` (rules R29, R114). -/
def frameWord0 (f : Frame) : Word := f[3] ++ f[2] ++ f[1] ++ f[0]

/-- `FRAME1 = FRAME[7] ++ FRAME[6] ++ FRAME[5] ++ FRAME[4]` (rules R29, R115). -/
def frameWord1 (f : Frame) : Word := f[7] ++ f[6] ++ f[5] ++ f[4]

/-- `FRAME2 = FRAME[11] ++ FRAME[10] ++ FRAME[9] ++ FRAME[8]` (rules R29, R116). -/
def frameWord2 (f : Frame) : Word := f[11] ++ f[10] ++ f[9] ++ f[8]

/-- Byte lane `j` of a word: bits `[8j+7:8j]` (20_memory.md rule R53). -/
def byteLane (w : Word) (j : Fin 4) : Byte := w.extractLsb' (8 * j.val) 8

/-- The four bytes a little-endian host stores for a word, lowest address first (rule R53). -/
def littleEndianBytes (w : Word) : List Byte := [byteLane w 0, byteLane w 1, byteLane w 2, byteLane w 3]

/-- The four bytes a big-endian host stores for a word, lowest address first: "each word's 4 bytes reversed" (rule
R53). -/
def bigEndianBytes (w : Word) : List Byte := [byteLane w 3, byteLane w 2, byteLane w 1, byteLane w 0]

end Sys2Proof.Machine
end

