-- ==== Sys2Proof/Machine/Flags.lean ====
section
/-! DEFINITION. The status flags: the four sticky error flags and FIRST_CAUSE (10_state.md rules R23 and R32), the error
record (60_exceptions.md rule R205), the write-1-to-clear (40_host_access.md rule R103) and the STATUS word (rule
R102). CIFE has no arithmetic flags (rule R32). -/

namespace Sys2Proof.Machine

/-- The cause code, 1..4 (rules R201 to R204). -/
def causeCode : ErrorCause → Nibble
  | .totalZero => 1
  | .stepRange => 2
  | .cmdReserved => 3
  | .badAccess => 4

/-- The flag of a cause: bit `c - 1` of ERRF (rule R205), as in STATUS[3:0] (rule R23). -/
def causeFlag : ErrorCause → Nibble
  | .totalZero => 0b0001
  | .stepRange => 0b0010
  | .cmdReserved => 0b0100
  | .badAccess => 0b1000

/-- `REG.ERRF[c-1] <- 1` (rule R205). -/
def errfAfterError (c : ErrorCause) (errf : Nibble) : Nibble := errf ||| causeFlag c

/-- `if REG.ERRF == 0b0000: REG.FIRST_CAUSE <- c` (rule R205), on ERRF as it was before the error. -/
def firstCauseAfterError (c : ErrorCause) (errf firstCause : Nibble) : Nibble :=
  if errf = 0b0000 then causeCode c else firstCause

/-- `REG.ERRF <- REG.ERRF and not v[3:0]` (rule R103). -/
def errfAfterClear (mask errf : Nibble) : Nibble := errf &&& ~~~mask

/-- `if REG.ERRF == 0b0000: REG.FIRST_CAUSE <- 0` (rule R103), on ERRF as it is after the clear. -/
def firstCauseAfterClear (mask errf firstCause : Nibble) : Nibble :=
  if errfAfterClear mask errf = 0b0000 then 0 else firstCause

/-- The STATUS word `zext_32(REG.FIRST_CAUSE ++ 0b0000 ++ REG.ERRF)` (rule R102). -/
def statusWord (firstCause errf : Nibble) : Word := (firstCause ++ (0b0000 : Nibble) ++ errf).setWidth 32

/-- The level output `err_o`: `REG.STATUS[3:0] != 0` (rules R30, R206). -/
def errLevel (errf : Nibble) : Bool := decide (errf ≠ 0b0000)

end Sys2Proof.Machine
end

