-- ==== Sys2Proof/Machine/State.lean ====
section
/-! DEFINITION. The state of CIFE: the record of 10_state.md rule R36, the output signals of rule R30 that a step drives,
the observations of 70_reset_and_hazards.md rule R247, and the inputs not yet performed. Plain data throughout. -/

namespace Sys2Proof.Machine

/-- The state. The first nine fields are rule R36's record; CMD has no field, because it has no storage (rule R22). The
fields after `framesOut` are the block's port and the configuration, and `pending` is the outside world's. -/
structure State where
  /-- START, the ColorPair's start color `0xRRGGBB` (rule R24). -/
  startReg : Rgb
  /-- END, the ColorPair's end color (rule R25). -/
  endReg : Rgb
  /-- STEP, the step index, in bits [STEP_W-1:0] (rule R26). -/
  stepReg : StepVal
  /-- TOTAL, the step count, in bits [STEP_W-1:0] (rule R27). -/
  totalReg : StepVal
  /-- COLOR, the current color (rule R28). -/
  colorReg : Rgb
  /-- FRAME, the frame buffer (rule R29); `frame_out` shows it at all times (rule R30). -/
  frame : Frame
  /-- ERRF, STATUS[3:0], the four sticky error flags (rule R23). -/
  errf : Nibble
  /-- FIRST_CAUSE, STATUS[11:8] (rule R23). -/
  firstCause : Nibble
  /-- FRAMES_OUT, the frames emitted since reset, oldest first (rule R31). -/
  framesOut : List Frame
  /-- `frame_strobe` in the step that led to this state: true exactly when that step pulsed it (rules R30, R145).
  DESIGN CHOICE: notes/assumptions/5.md. -/
  frameStrobe : Bool
  /-- `hrdata[31:0]`, what the access that led to this state returned (rules R71, R100); 0 for a write.
  DESIGN CHOICE: notes/assumptions/6.md. -/
  hrdata : Word
  /-- The `rdata` values the run's reads returned, in order (rule R247). The run's observation, not a register, so reset
  does not empty it. DESIGN CHOICE: notes/assumptions/6.md. -/
  rdataLog : List Word
  /-- The configuration (rule R20), which no step changes. DESIGN CHOICE: notes/assumptions/1.md. -/
  config : Config
  /-- The inputs the Host and the reset line will present, next one first (rules R3, R58, R247).
  DESIGN CHOICE: notes/assumptions/3.md. -/
  pending : List HostInput
  deriving DecidableEq, Repr

/-- Why the machine stops with a fault: no reason exists. "CIFE never stops, hangs or faults by itself" (rule R247); an
error of rules R201 to R204 is recorded in STATUS and the machine goes on (rule R200). Safe: nothing raises a fault. -/
inductive Fault where
  deriving DecidableEq, Repr

/-- Why an operation has no meaning. -/
inductive Refusal where
  /-- Raised by an arm of `exec` whose operation has no meaning yet; no arm does. Safe: the machine stops. -/
  | notModelled (mnemonic : String)
  deriving DecidableEq, Repr

/-- What a step answers. -/
abbrev Result := Host.Outcome State Fault Refusal

/-- The state right after reset (70_reset_and_hazards.md rule R230): every register 0, FRAME the black frame
`00 00 00 00 FF 00 00 00 FF FF FF FF`, `FRAMES_OUT` empty, no pulse. No access has been made, so `hrdata` is 0 and the
log is empty (DESIGN CHOICE: notes/assumptions/6.md); no input is pending (notes/assumptions/3.md). -/
def State.reset : State where
  startReg := 0x000000
  endReg := 0x000000
  stepReg := 0x000000
  totalReg := 0x000000
  colorReg := 0x000000
  frame := #v[0x00, 0x00, 0x00, 0x00, 0xFF, 0x00, 0x00, 0x00, 0xFF, 0xFF, 0xFF, 0xFF]
  errf := 0b0000
  firstCause := 0
  framesOut := []
  frameStrobe := false
  hrdata := 0x00000000
  rdataLog := []
  config := Config.thisHardware
  pending := []

end Sys2Proof.Machine
end

