-- ==== Sys2Proof/Machine/Ops.lean ====
section
/-! DEFINITION. The named operations over the state: register writes, the read data path, the error record and its
clear, emission of a frame, the output signals, and what a step does around an access. CIFE has no memory of its own
(00_scope.md rule R8, 10_state.md rule R20), so there is no memory operation. -/

namespace Sys2Proof.Machine

/-! ### Register writes -/

/-- `REG.START <- v`. -/
def State.writeStart (s : State) (v : Rgb) : State := { s with startReg := v }

/-- `REG.END <- v`. -/
def State.writeEnd (s : State) (v : Rgb) : State := { s with endReg := v }

/-- `REG.STEP <- v`. -/
def State.writeStep (s : State) (v : StepVal) : State := { s with stepReg := v }

/-- `REG.TOTAL <- v`. -/
def State.writeTotal (s : State) (v : StepVal) : State := { s with totalReg := v }

/-- `REG.COLOR <- v`. -/
def State.writeColor (s : State) (v : Rgb) : State := { s with colorReg := v }

/-! ### Reads -/

/-- `rdata <- v`: the access returns `v` on `hrdata` (rule R71) and the run observes it (rule R247). -/
def State.returnData (s : State) (v : Word) : State :=
  { s with hrdata := v, rdataLog := s.rdataLog ++ [v] }

/-- The STATUS register as a word (rule R102). -/
def State.status (s : State) : Word := statusWord s.firstCause s.errf

/-! ### Errors: taking one, and the return from one -/

/-- `raise Error(c)` and `recordError(st, c)` (60_exceptions.md rule R205): "Nothing else changes". CIFE has no traps: no
state is saved, no control is transferred, nothing is masked (rules R200, R208). -/
def State.recordError (s : State) (c : ErrorCause) : State :=
  { s with
    firstCause := firstCauseAfterError c s.errf s.firstCause
    errf := errfAfterError c s.errf }

/-- The write-1-to-clear of the error flags (40_host_access.md rule R103), which is "the return from an error" (rule
R209). -/
def State.clearErrors (s : State) (mask : Nibble) : State :=
  { s with
    errf := errfAfterClear mask s.errf
    firstCause := firstCauseAfterClear mask s.errf s.firstCause }

/-! ### Frames -/

/-- `FRAME <- f`, all 12 bytes at once (rule R144). -/
def State.writeFrame (s : State) (f : Frame) : State := { s with frame := f }

/-- `emit(F)` (41_frame_encoder.md rule R145): append `F` to `FRAMES_OUT` and pulse `frame_strobe` once, in one step. -/
def State.emit (s : State) (f : Frame) : State :=
  { s with framesOut := s.framesOut ++ [f], frameStrobe := true }

/-! ### Output signals (rule R30) -/

/-- `frame_out[95:0]` as a value: `FRAME[0] ++ FRAME[1] ++ ... ++ FRAME[11]`. -/
def State.frameOut (s : State) : BitVec 96 :=
  s.frame[0] ++ s.frame[1] ++ s.frame[2] ++ s.frame[3] ++ s.frame[4] ++ s.frame[5] ++
    s.frame[6] ++ s.frame[7] ++ s.frame[8] ++ s.frame[9] ++ s.frame[10] ++ s.frame[11]

/-- Stream bit `k` of `frame_out`, `k = 0` first on the wire: bit `7 - (k mod 8)` of `FRAME[k div 8]`. The order within
a byte is the spec's from general knowledge (rule R30, G1): notes/assumptions/7.md. -/
def State.streamBit (s : State) (k : Fin 96) : Bool :=
  (s.frame[k.val / 8]'(by omega)).getLsbD (7 - k.val % 8)

/-- `err_o`, a level (rules R30, R206). -/
def State.errO (s : State) : Bool := errLevel s.errf

/-! ### Around an access -/

/-- A step begins: the input is taken, the last step's pulse is over, and nothing has been returned (a write returns 0,
rule R100). -/
def State.beginStep (s : State) (rest : List HostInput) : State :=
  { s with pending := rest, frameStrobe := false, hrdata := 0x00000000 }

/-- A refused access (rules R100, R200): the error is recorded, and the access completes; a read returns 0. -/
def State.refuseAccess (s : State) (haw : Haw) (c : ErrorCause) : State :=
  if haw.we then s.recordError c else (s.recordError c).returnData 0x00000000

/-- The reset input (70_reset_and_hazards.md rule R230): "every piece of CIFE state to its reset value". The
configuration, the outside world's pending inputs and the run's log of read data are no CIFE state and stay.
An access that coincides with reset is not performed (rule R231), so it has no part here. -/
def State.applyReset (s : State) : State :=
  { State.reset with config := s.config, pending := s.pending, rdataLog := s.rdataLog }

end Sys2Proof.Machine
end

