-- ==== Sys2Proof/Machine/HostRead.lean ====
section
/-! DEFINITION. The register reads of 40_host_access.md: RD_CMD, RD_STATUS, RD_START, RD_END, RD_STEP, RD_TOTAL,
RD_COLOR, RD_FRAME0, RD_FRAME1, RD_FRAME2. None writes a flag and none can raise an error. -/

namespace Sys2Proof.Machine

/-- RD_CMD (rule R101): CMD has no storage and reads 0. -/
def execRdCmd (s : State) : Result := .next (s.returnData 0x00000000)

/-- RD_STATUS (rule R102). "The read does not clear anything." -/
def execRdStatus (s : State) : Result := .next (s.returnData s.status)

/-- RD_START (rule R104). -/
def execRdStart (s : State) : Result := .next (s.returnData (colorWord s.startReg))

/-- RD_END (rule R106). -/
def execRdEnd (s : State) : Result := .next (s.returnData (colorWord s.endReg))

/-- RD_STEP (rule R108). -/
def execRdStep (s : State) : Result := .next (s.returnData (stepWord s.stepReg))

/-- RD_TOTAL (rule R110). -/
def execRdTotal (s : State) : Result := .next (s.returnData (stepWord s.totalReg))

/-- RD_COLOR (rule R112). -/
def execRdColor (s : State) : Result := .next (s.returnData (colorWord s.colorReg))

/-- RD_FRAME0 (rule R114). -/
def execRdFrame0 (s : State) : Result := .next (s.returnData (frameWord0 s.frame))

/-- RD_FRAME1 (rule R115). -/
def execRdFrame1 (s : State) : Result := .next (s.returnData (frameWord1 s.frame))

/-- RD_FRAME2 (rule R116). -/
def execRdFrame2 (s : State) : Result := .next (s.returnData (frameWord2 s.frame))

end Sys2Proof.Machine
end

