-- ==== Sys2Proof/Machine/HostWrite.lean ====
section
/-! DEFINITION. The register writes of 40_host_access.md: WR_STATUS, WR_START, WR_END, WR_STEP, WR_TOTAL, WR_COLOR. None
can raise an error, and each register is written in one step (20_memory.md rule R55). -/

namespace Sys2Proof.Machine

/-- WR_STATUS (rule R103): write-1-to-clear by `v[3:0]`. -/
def execWrStatus (data : Word) (s : State) : Result := .next (s.clearErrors (clearMask data))

/-- WR_START (rule R105): `REG.START <- v[23:0]`. -/
def execWrStart (data : Word) (s : State) : Result := .next (s.writeStart (colorOperand data))

/-- WR_END (rule R107): `REG.END <- v[23:0]`. -/
def execWrEnd (data : Word) (s : State) : Result := .next (s.writeEnd (colorOperand data))

/-- WR_STEP (rule R109): `REG.STEP <- v[STEP_W-1:0]`; the range is checked when a LERP runs. -/
def execWrStep (data : Word) (s : State) : Result := .next (s.writeStep (stepOperand s.config.stepW data))

/-- WR_TOTAL (rule R111): `REG.TOTAL <- v[STEP_W-1:0]`; 0 is accepted. -/
def execWrTotal (data : Word) (s : State) : Result := .next (s.writeTotal (stepOperand s.config.stepW data))

/-- WR_COLOR (rule R113): `REG.COLOR <- v[23:0]`; FRAME does not change. -/
def execWrColor (data : Word) (s : State) : Result := .next (s.writeColor (colorOperand data))

end Sys2Proof.Machine
end

