-- ==== Sys2Proof/Machine/FrameEncoder.lean ====
section
/-! DEFINITION. The Frame Encoder (41_frame_encoder.md): the frame layout, and ENCODE. -/

namespace Sys2Proof.Machine

/-- `BRIGHTNESS`, the maximum of a 5-bit field (rule R142). The literal in the original source code was not audited:
notes/assumptions/8.md. -/
def brightness : BitVec 5 := 31

/-- `HDR = 0b111 ++ BRIGHTNESS[4:0]` (rule R142). -/
def hdr : Byte := (0b111 : BitVec 3) ++ brightness

/-- `encode(R, G, B)` (rule R141): start marker, header, then blue, green, red (rule R143), end marker. -/
def encodeFrame (c : Color) : Frame :=
  #v[0x00, 0x00, 0x00, 0x00, hdr, c.b, c.g, c.r, 0xFF, 0xFF, 0xFF, 0xFF]

/-- The body of ENCODE (rule R144): rebuild FRAME in full from COLOR and emit it. -/
def State.encodeAndEmit (s : State) : State :=
  (s.writeFrame (encodeFrame (unpack s.colorReg))).emit (encodeFrame (unpack s.colorReg))

/-- ENCODE (rule R144): it cannot fail. -/
def execEncode (s : State) : Result := .next s.encodeAndEmit

end Sys2Proof.Machine
end

