-- ==== Sys2Proof/Machine/Interpolator.lean ====
section
/-! DEFINITION. The Interpolator (42_interpolator.md): the exact channel blend, its operand checks, and LERP, LERP_ENC
and NOP. -/

namespace Sys2Proof.Machine

/-- The numerator `N = min*(T-s) + max*s` on mathematical integers (rules R7, R160). -/
def lerpNumerator (min max : Byte) (s T : Nat) : Nat := min.toNat * (T - s) + max.toNat * s

/-- `lerp8(min, max, s, T) = N div T` (rule R160), defined for `T >= 1` and `s <= T`. Every use stands behind
`lerpCheck`, so no value is taken outside that range: notes/assumptions/12.md. -/
def lerp8 (min max : Byte) (s T : Nat) : Byte := BitVec.ofNat 8 (lerpNumerator min max s T / T)

/-- `lerp_color` (rule R163): three independent lanes. -/
def lerpColor (c0 c1 : Color) (s T : Nat) : Color :=
  { r := lerp8 c0.r c1.r s T, g := lerp8 c0.g c1.g s T, b := lerp8 c0.b c1.b s T }

/-- The operand checks of rule R162, in order. -/
def lerpCheck (s T : StepVal) : Option ErrorCause :=
  if T.toNat = 0 then some .totalZero
  else if T.toNat < s.toNat then some .stepRange
  else none

/-- The color a LERP writes: `pack(lerp_color(unpack(REG.START), unpack(REG.END), s, T))` (rule R165). -/
def State.interpolated (s : State) : Rgb :=
  pack (lerpColor (unpack s.startReg) (unpack s.endReg) s.stepReg.toNat s.totalReg.toNat)

/-- LERP (rule R165): a raised error ends the operation. -/
def execLerp (s : State) : Result :=
  match lerpCheck s.stepReg s.totalReg with
  | some c => .next (s.recordError c)
  | none => .next (s.writeColor s.interpolated)

/-- LERP_ENC (rule R166): the pseudocode of LERP, which may end here, then encode and emit the color just written. -/
def execLerpEnc (s : State) : Result :=
  match lerpCheck s.stepReg s.totalReg with
  | some c => .next (s.recordError c)
  | none => .next (s.writeColor s.interpolated).encodeAndEmit

/-- NOP (rule R167): no state changes. -/
def execNop (s : State) : Result := .next s

end Sys2Proof.Machine
end

