-- ==== Sys2Proof/Machine/Dispatch.lean ====
section
/-! DEFINITION. One arm per operation of 30_encoding.md rule R76 (`perform` of 40_host_access.md rule R100). -/

namespace Sys2Proof.Machine

def exec (i : Instr) (s : State) : Host.Outcome State Fault Refusal :=
  match i with
  | .rdCmd => Sys2Proof.Machine.execRdCmd s
  | .rdStatus => Sys2Proof.Machine.execRdStatus s
  | .rdStart => Sys2Proof.Machine.execRdStart s
  | .rdEnd => Sys2Proof.Machine.execRdEnd s
  | .rdStep => Sys2Proof.Machine.execRdStep s
  | .rdTotal => Sys2Proof.Machine.execRdTotal s
  | .rdColor => Sys2Proof.Machine.execRdColor s
  | .rdFrame0 => Sys2Proof.Machine.execRdFrame0 s
  | .rdFrame1 => Sys2Proof.Machine.execRdFrame1 s
  | .rdFrame2 => Sys2Proof.Machine.execRdFrame2 s
  | .wrStatus data => Sys2Proof.Machine.execWrStatus data s
  | .wrStart data => Sys2Proof.Machine.execWrStart data s
  | .wrEnd data => Sys2Proof.Machine.execWrEnd data s
  | .wrStep data => Sys2Proof.Machine.execWrStep data s
  | .wrTotal data => Sys2Proof.Machine.execWrTotal data s
  | .wrColor data => Sys2Proof.Machine.execWrColor data s
  | .nop => Sys2Proof.Machine.execNop s
  | .lerp => Sys2Proof.Machine.execLerp s
  | .encode => Sys2Proof.Machine.execEncode s
  | .lerpEnc => Sys2Proof.Machine.execLerpEnc s

end Sys2Proof.Machine
end

