-- ==== Sys2Proof/Machine/Access.lean ====
section
/-! DEFINITION. One host access (40_host_access.md rule R100). -/

namespace Sys2Proof.Machine

/-- `access(st, haw)` (rule R100): a decoding error is recorded, an operation is performed. -/
def access (haw : Haw) (s : State) : Result :=
  match decode haw with
  | .error c => .next (s.refuseAccess haw c)
  | .op i => exec i s

/-- One input of the block: one access, or one reset (rules R3, R231, R247). -/
def perform (input : HostInput) (s : State) : Result :=
  match input with
  | .access haw => access haw s
  | .reset _ => .next s.applyReset

/-- The access the table's word `w` stands for: its low 43 bits (rule R71). -/
def tableInput (w : Nat) : HostInput := .access (BitVec.ofNat 43 w)

end Sys2Proof.Machine
end

