-- ==== Sys2Proof/Machine/Step.lean ====
section
/-! DEFINITION. One step of CIFE: one host access or one reset (70_reset_and_hazards.md rule R247). -/

namespace Sys2Proof.Machine

/-- A step takes the next input and performs it. With no input the block stays as it is, because it is passive (00_scope.md
rule R3): DESIGN CHOICE, notes/assumptions/4.md. -/
def step (s : State) : Host.Outcome State Fault Refusal :=
  match s.pending with
  | [] => .next (s.beginStep [])
  | input :: rest => perform input (s.beginStep rest)

/-- `s` with the access of the table's word placed where `step` takes its next input: in front of what is pending. -/
def State.withFetchWord (s : State) (_nbits w : Nat) : State :=
  { s with pending := tableInput w :: s.pending }

end Sys2Proof.Machine
end

