-- ==== Sys2Proof/Safety.lean ====
section
/-! DEFINITION. What claims about CIFE are stated in: the invariants of 10_state.md rules R34 and R35, what a run without an
error is, what a run shows (70_reset_and_hazards.md rule R247), and the relation of 42_interpolator.md rule R168 for
claims about the original software. -/

namespace Sys2Proof.Machine

/-- A well-formed frame (rule R34): start marker, header, end marker. Only bytes 5, 6 and 7 can vary. -/
abbrev FrameWellFormed (f : Frame) : Prop :=
  f[0] = 0x00 ∧ f[1] = 0x00 ∧ f[2] = 0x00 ∧ f[3] = 0x00 ∧ f[4] = 0xFF ∧
    f[8] = 0xFF ∧ f[9] = 0xFF ∧ f[10] = 0xFF ∧ f[11] = 0xFF

/-- FIRST_CAUSE is 0 exactly when no flag is set, and it is in 0..4 (rule R35). -/
abbrev State.CauseConsistent (s : State) : Prop :=
  (s.firstCause = 0 ↔ s.errf = 0b0000) ∧ s.firstCause.toNat ≤ 4

/-- STEP and TOTAL hold `STEP_W`-bit values (rules R26, R27: the bits above read as zero). -/
abbrev State.StepFieldsFit (s : State) : Prop :=
  s.stepReg.toNat < 2 ^ s.config.stepW ∧ s.totalReg.toNat < 2 ^ s.config.stepW

/-- FRAME is the frame last emitted since reset, or the black frame of reset when none was (rules R29, R144, R230). -/
abbrev State.FrameIsLastEmitted (s : State) : Prop :=
  s.frame = s.framesOut.getLast?.getD State.reset.frame

/-- The invariant every step keeps. The pulse clause: `frame_strobe` high means that a frame has just been emitted
(rule R31: one entry per pulse). -/
abbrev State.Inv (s : State) : Prop :=
  s.config.Legal ∧ FrameWellFormed s.frame ∧ (∀ f ∈ s.framesOut, FrameWellFormed f) ∧ s.FrameIsLastEmitted ∧
    s.CauseConsistent ∧ s.StepFieldsFit ∧ (s.frameStrobe = true → s.framesOut ≠ [])

/-- No error: "a claim that needs 'no error' must state `STATUS[3:0] = 0`" (rule R247). -/
abbrev State.NoError (s : State) : Prop := s.errf = 0b0000

/-- Two states hold the same state record of rule R36; they may differ in the port's outputs, the log and the inputs. -/
abbrev State.SameRecord (s t : State) : Prop :=
  s.startReg = t.startReg ∧ s.endReg = t.endReg ∧ s.stepReg = t.stepReg ∧ s.totalReg = t.totalReg ∧
    s.colorReg = t.colorReg ∧ s.frame = t.frame ∧ s.errf = t.errf ∧ s.firstCause = t.firstCause ∧
    s.framesOut = t.framesOut

/-- The next input is an access that decodes to the operation `i`. -/
abbrev State.NextOp (s : State) (i : Instr) : Prop :=
  ∃ haw rest, s.pending = .access haw :: rest ∧ decode haw = .op i

/-- The next input is an access that the decoder refuses with the cause `c`. -/
abbrev State.NextRefused (s : State) (c : ErrorCause) : Prop :=
  ∃ haw rest, s.pending = .access haw :: rest ∧ decode haw = .error c

/-- The next input is the reset, with or without a coinciding access. -/
abbrev State.NextReset (s : State) : Prop := ∃ coinciding rest, s.pending = .reset coinciding :: rest

/-- The operand checks of a LERP pass: `TOTAL != 0` and `STEP <= TOTAL` (42_interpolator.md rule R162). -/
abbrev State.LerpOperandsLegal (s : State) : Prop :=
  s.totalReg.toNat ≠ 0 ∧ s.stepReg.toNat ≤ s.totalReg.toNat

/-- The next input raises the cause `c`: the decoder refuses it, or it is a LERP or LERP_ENC whose operand check fails
(rules R201 to R204). -/
abbrev State.NextRaises (s : State) : ErrorCause → Prop
  | .totalZero => (s.NextOp .lerp ∨ s.NextOp .lerpEnc) ∧ s.totalReg.toNat = 0
  | .stepRange =>
    (s.NextOp .lerp ∨ s.NextOp .lerpEnc) ∧ s.totalReg.toNat ≠ 0 ∧ s.totalReg.toNat < s.stepReg.toNat
  | .cmdReserved => s.NextRefused .cmdReserved
  | .badAccess => s.NextRefused .badAccess

/-- What a run shows (rule R247): the final state, the `rdata` values in order, and `FRAMES_OUT`. -/
structure Observation where
  final : State
  rdata : List Word
  frames : List Frame
  deriving DecidableEq, Repr

/-- The observation of a run that ends in `s`. -/
def State.observe (s : State) : Observation := { final := s, rdata := s.rdataLog, frames := s.framesOut }

/-- `lerp_src` of rule R168: the values the original floating-point software may give where CIFE gives
`E = lerp8(min,max,s,T)`. "This is not a behaviour of CIFE": no step uses it. -/
abbrev LerpSrc (min max : Byte) (s T : Nat) (v : Byte) : Prop :=
  v = lerp8 min max s T ∨
    (s ≠ 0 ∧ lerpNumerator min max s T % T = 0 ∧ 1 ≤ (lerp8 min max s T).toNat ∧ v = lerp8 min max s T - 1)

end Sys2Proof.Machine
end

