-- ==== Sys2Proof/Certificates/Slice0/Obligations.lean ====
section
/-! DEFINITION. The statements for the provers. Each docstring names the rule of spec/ it formalises. A result is written as
the whole next state (`{ s with … }`), so it is also the frame: every field it does not name is unchanged. CIFE has no
memory (10_state.md rule R20), so no frame speaks of memory. -/

open Sys2Proof Sys2Proof.Machine

/-! ### Encoding -/

/-- Tier 3. Decoding the encoding of a well-formed operation gives it back, with every value of its operand
(30_encoding.md section 3; the DATA the encoder gives a read is notes/assumptions/10.md's). -/
def Obligations.DecodeOfEncodeGivesTheOperationBack : Prop :=
  ∀ i : Instr, i.wf = true → decode (encode i) = .op i

/-- Tier 2, rule R76. A word decodes to an operation exactly when it lies in that operation's row of the table and the
operation carries the word's DATA (a register write) or nothing. Two operations whose rows share a word have one row.
A word in no row is an error, with the cause of rule R73. -/
def Obligations.DecodingFollowsTheOpcodeTable : Prop :=
  (∀ (haw : Haw) (i : Instr),
    decode haw = .op i ↔ i.RowMatches haw ∧ (i.carries = none ∨ i.carries = some haw.data)) ∧
  (∀ (haw : Haw) (i j : Instr), i.RowMatches haw → j.RowMatches haw → i.tableRow = j.tableRow) ∧
  (∀ haw : Haw, (∀ i : Instr, ¬ i.RowMatches haw) →
    decode haw = .error
      (if haw.sz = 0b10#2 ∧ haw.we = true ∧ haw.off = 0x00#8 then .cmdReserved else .badAccess))

/-- Tier 2, rule R77. The illegal encodings, each with its cause, and their effect: the error record and nothing else; a
read of one returns 0. -/
def Obligations.IllegalEncodingsHaveTheirCauseAndOnlyRecordIt : Prop :=
  (∀ haw : Haw,
    (decode haw = .error .badAccess ↔
      haw.sz ≠ 0b10#2 ∨ haw.off.extractLsb' 0 2 ≠ 0b00#2 ∨ haw.off = 0x1C#8 ∨ 0x2C ≤ haw.off.toNat ∨
        (haw.we = true ∧ (haw.off = 0x20#8 ∨ haw.off = 0x24#8 ∨ haw.off = 0x28#8))) ∧
    (decode haw = .error .cmdReserved ↔
      haw.sz = 0b10#2 ∧ haw.we = true ∧ haw.off = 0x00#8 ∧ haw.data.extractLsb' 2 30 ≠ 0#30) ∧
    decode haw ≠ .error .totalZero ∧ decode haw ≠ .error .stepRange) ∧
  (∀ (haw : Haw) (c : ErrorCause) (s : State), decode haw = .error c →
    access haw s = .next
      (if haw.we then { s with
          firstCause := if s.errf = 0b0000 then causeCode c else s.firstCause
          errf := s.errf ||| causeFlag c }
        else { s with
          firstCause := if s.errf = 0b0000 then causeCode c else s.firstCause
          errf := s.errf ||| causeFlag c
          hrdata := 0x00000000
          rdataLog := s.rdataLog ++ [0x00000000] }))

/-- Tier 2, rule R79. The DATA field of a read is ignored: it changes neither the decoding nor the access, no DATA makes
the decoder reject a read, and the result is on `hrdata`. -/
def Obligations.ReadsIgnoreTheDataField : Prop :=
  (∀ (sz : BitVec 2) (off : Byte) (d d' : Word), decode (mkHaw sz false off d) = decode (mkHaw sz false off d') ∧
    ∀ s, access (mkHaw sz false off d) s = access (mkHaw sz false off d') s) ∧
  (∀ (r : Reg) (d : Word) (s : State), ∃ i w, decode (mkHaw 0b10 false r.offset d) = .op i ∧
    access (mkHaw 0b10 false r.offset d) s = .next { s with hrdata := w, rdataLog := s.rdataLog ++ [w] })

/-- Tier 1. The seven worked encodings (30_encoding.md section 5, which marks them derived); one word for each of the ten
reads, RD_START's with DATA set, and one for each of the four commands; and one word of each cause the decoder refuses with:
a reserved CMD word, and a CMD word as a halfword (95_test_vectors.md V-D1). -/
def Obligations.WorkedEncodingsDecodeToTheirOperations : Prop :=
  (decode 0x50800FF00FF = .op (.wrStart 0x00FF00FF) ∧ decode 0x50C0000FF00 = .op (.wrEnd 0x0000FF00) ∧
    decode 0x51400000032 = .op (.wrTotal 50) ∧ decode 0x51000000001 = .op (.wrStep 1) ∧
    decode 0x50000000003 = .op .lerpEnc ∧ decode 0x42400000000 = .op .rdFrame1 ∧
    decode 0x5040000000F = .op (.wrStatus 0xF)) ∧
  (decode 0x40000000000 = .op .rdCmd ∧ decode 0x40400000000 = .op .rdStatus ∧
    decode 0x408DEADBEEF = .op .rdStart ∧ decode 0x40C00000000 = .op .rdEnd ∧
    decode 0x41000000000 = .op .rdStep ∧ decode 0x41400000000 = .op .rdTotal ∧
    decode 0x41800000000 = .op .rdColor ∧ decode 0x42000000000 = .op .rdFrame0 ∧
    decode 0x42400000000 = .op .rdFrame1 ∧ decode 0x42800000000 = .op .rdFrame2) ∧
  (decode 0x50000000000 = .op .nop ∧ decode 0x50000000001 = .op .lerp ∧
    decode 0x50000000002 = .op .encode ∧ decode 0x50000000003 = .op .lerpEnc) ∧
  (decode 0x50080000001 = .error .cmdReserved ∧ decode 0x30000000007 = .error .badAccess)

/-- Tier 2. A host bus access reaches the block exactly inside the 256-byte window at BASE, and the block sees the offset
`addr - BASE` (20_memory.md section 1). BASE is a free value (notes/assumptions/2.md): this holds whatever it is. -/
def Obligations.TheWindowIsBaseToBasePlus255 : Prop :=
  256 ∣ Config.base ∧
  ∀ (addr : Nat) (sz : BitVec 2) (we : Bool) (d : Word),
    (Config.base ≤ addr ∧ addr ≤ Config.base + 0xFF →
      ∃ haw, hawOfBus addr sz we d = some haw ∧ haw.sz = sz ∧ haw.we = we ∧ haw.data = d ∧
        haw.off.toNat = addr - Config.base) ∧
    (addr < Config.base ∨ Config.base + 0xFF < addr → hawOfBus addr sz we d = none)

/-- Tier 1, rule R81. The access words of the pseudo-instructions, in order: `SETPAIR`, `SHOW` and `STEPTO` are two accesses
each, the two of their expansion, and `CLRERR` is one. Another context's access can fall between the two: with any inputs
placed between them, a step still takes the first access alone and leaves the rest, the second access among them, to
later steps. -/
def Obligations.PseudoInstructionsExpand : Prop :=
  (∀ s e : AsmValue,
    assemble (.setPair s e) = [encode (.wrStart s.data), encode (.wrEnd e.data)] ∧
    assemble (.setPair s e) = assemble (.wr .start s) ++ assemble (.wr .endc e)) ∧
  (∀ c : AsmValue,
    assemble (.showColor c) = [encode (.wrColor c.data), encode .encode] ∧
    assemble (.showColor c) = assemble (.wr .color c) ++ assemble .encode) ∧
  (∀ k : AsmValue,
    assemble (.stepTo k) = [encode (.wrStep k.data), encode .lerpEnc] ∧
    assemble (.stepTo k) = assemble (.wr .step k) ++ assemble .lerpEnc) ∧
  (assemble .clrErr = [encode (.wrStatus 0xF)] ∧ assemble .clrErr = assemble (.wr .status (.num 0xF))) ∧
  (∀ (s : State) (first second : Haw) (between rest : List HostInput),
    s.pending = .access first :: (between ++ .access second :: rest) →
      ∃ t, step s = .next t ∧ t.pending = between ++ .access second :: rest)

/-- Tier 2, rule R80. The access words of the other lines. `RD <reg>` is the read of each of the ten registers, with or without
a recorded value. `WR <reg>, <value>` is the write of that value, a number or a color operand `#RRGGBB`, to each of the seven
registers the rule names. `NOP`, `LERP`, `ENCODE` and `LERP_ENC` are `WR CMD` of 0, 1, 2 and 3. `WR CMD, v` with v outside
0..3 is the illegal word of rule R77; the assembler warns on it and it is no syntax error. A comment is no access. The abstract
syntax, and that a number or color too wide for its place is ill formed, are the model's: notes/assumptions/11.md. -/
def Obligations.AssemblyLinesAreTheirAccesses : Prop :=
  (∀ e : Option Word,
    assemble (.rd .cmd e) = [encode .rdCmd] ∧ assemble (.rd .status e) = [encode .rdStatus] ∧
    assemble (.rd .start e) = [encode .rdStart] ∧ assemble (.rd .endc e) = [encode .rdEnd] ∧
    assemble (.rd .step e) = [encode .rdStep] ∧ assemble (.rd .total e) = [encode .rdTotal] ∧
    assemble (.rd .color e) = [encode .rdColor] ∧ assemble (.rd .frame0 e) = [encode .rdFrame0] ∧
    assemble (.rd .frame1 e) = [encode .rdFrame1] ∧ assemble (.rd .frame2 e) = [encode .rdFrame2]) ∧
  (∀ v : AsmValue,
    assemble (.wr .status v) = [encode (.wrStatus v.data)] ∧ assemble (.wr .start v) = [encode (.wrStart v.data)] ∧
    assemble (.wr .endc v) = [encode (.wrEnd v.data)] ∧ assemble (.wr .step v) = [encode (.wrStep v.data)] ∧
    assemble (.wr .total v) = [encode (.wrTotal v.data)] ∧ assemble (.wr .color v) = [encode (.wrColor v.data)] ∧
    ∃ haw, assemble (.wr .cmd v) = [haw] ∧ haw.sz = 0b10#2 ∧ haw.we = true ∧ haw.off = 0x00#8 ∧ haw.data = v.data) ∧
  (∀ n : Nat, (n < 2 ^ 32 → (AsmValue.num n).data.toNat = n) ∧ (n < 2 ^ 24 → (AsmValue.rgb n).data.toNat = n)) ∧
  (assemble .nop = [encode .nop] ∧ assemble .nop = assemble (.wr .cmd (.num 0)) ∧
    assemble .lerp = [encode .lerp] ∧ assemble .lerp = assemble (.wr .cmd (.num 1)) ∧
    assemble .encode = [encode .encode] ∧ assemble .encode = assemble (.wr .cmd (.num 2)) ∧
    assemble .lerpEnc = [encode .lerpEnc] ∧ assemble .lerpEnc = assemble (.wr .cmd (.num 3))) ∧
  (∀ n : Nat, 3 < n → n < 2 ^ 32 →
    (AsmLine.wr .cmd (.num n)).wf = true ∧ (AsmLine.wr .cmd (.num n)).warns = true ∧
    ∃ haw, assemble (.wr .cmd (.num n)) = [haw] ∧ decode haw = .error .cmdReserved) ∧
  (∀ text : String, assemble (.comment text) = [])

/-- Tier 2. Every access a well-formed line assembles to is an operation, but for the lines an assembler should warn on,
whose one access is `CMD_RESERVED` (30_encoding.md section 5; the abstract syntax is notes/assumptions/11.md's). -/
def Obligations.AssembledLinesAreLegalUnlessWarned : Prop :=
  ∀ line : AsmLine, line.wf = true →
    (line.warns = false → ∀ haw ∈ assemble line, ∃ i, decode haw = .op i) ∧
    (line.warns = true → ∃ haw, assemble line = [haw] ∧ decode haw = .error .cmdReserved)

/-! ### Steps -/

/-- Tier 1. A step runs the decoded operation: when the next access decodes to `i`, the step is `exec i` on the state in
which that access is taken, the pulse of the step before is over and nothing has been returned yet
(40_host_access.md section 1; the port fields are notes/assumptions/3.md, 5.md and 6.md). -/
def Obligations.StepRunsTheDecodedOperation : Prop :=
  ∀ (s : State) (haw : Haw) (rest : List HostInput) (i : Instr),
    s.pending = .access haw :: rest → decode haw = .op i →
      step s = exec i { s with pending := rest, frameStrobe := false, hrdata := 0x00000000 }

/-- Tier 1, rule R205. A step with a refused access answers a next state: the error is recorded, a read returns 0, and
nothing else changes. -/
def Obligations.StepRecordsARefusedAccess : Prop :=
  ∀ (s : State) (haw : Haw) (rest : List HostInput) (c : ErrorCause),
    s.pending = .access haw :: rest → decode haw = .error c →
      step s = .next { s with
        pending := rest
        frameStrobe := false
        hrdata := 0x00000000
        rdataLog := if haw.we then s.rdataLog else s.rdataLog ++ [0x00000000]
        firstCause := if s.errf = 0b0000 then causeCode c else s.firstCause
        errf := s.errf ||| (0b0001 : Nibble) <<< ((causeCode c).toNat - 1) }

/-- Tier 1, rule R230. The reset step: every register 0, FRAME the encoding of black, `FRAMES_OUT` empty, `err_o` low and no
pulse, whatever the state before and whatever access coincides. -/
def Obligations.ResetStepSetsEveryResetValue : Prop :=
  ∀ (s : State) (coinciding : Option Haw) (rest : List HostInput), s.pending = .reset coinciding :: rest →
    ∃ t, step s = .next t ∧
      t.startReg = 0 ∧ t.endReg = 0 ∧ t.stepReg = 0 ∧ t.totalReg = 0 ∧ t.colorReg = 0 ∧
      t.errf = 0 ∧ t.firstCause = 0 ∧ t.frame = encodeFrame { r := 0, g := 0, b := 0 } ∧
      frameWord0 t.frame = 0x00000000 ∧ frameWord1 t.frame = 0x000000FF ∧ frameWord2 t.frame = 0xFFFFFFFF ∧
      t.framesOut = [] ∧ t.errO = false ∧ t.frameStrobe = false ∧
      t.frameOut = 0x00000000FF000000FFFFFFFF#96

/-- Tier 1. What a reset step leaves as it was: the configuration, the inputs not yet taken and the run's log of read data
(70_reset_and_hazards.md section 1; that these are no CIFE state is notes/assumptions/1.md, 3.md and 6.md's). -/
def Obligations.ResetStepKeepsWhatIsNotCifeState : Prop :=
  ∀ (s : State) (coinciding : Option Haw) (rest : List HostInput), s.pending = .reset coinciding :: rest →
    step s = .next { State.reset with config := s.config, pending := rest, rdataLog := s.rdataLog }

/-- Tier 1. With no input the block stays as it is; only the pulse is over and nothing is on the read data bus. This is the
model's choice, notes/assumptions/4.md, after 00_scope.md section 1 ("It is passive"). -/
def Obligations.IdleStepChangesNoRegister : Prop :=
  ∀ s : State, s.pending = [] → step s = .next { s with frameStrobe := false, hrdata := 0x00000000 }

/-- Tier 2. No step and no run of the model stops: from every state, any number of steps answers a next state. For a step that
is an access or a reset this is read from 70_reset_and_hazards.md section 5 ("CIFE never stops, hangs or faults by itself")
by inference, notes/assumptions/13.md. For a step with no pending input the spec says nothing, and that it answers a next
state is the model's choice, notes/assumptions/4.md. -/
def Obligations.NoRunEverStops : Prop :=
  ∀ (k : Nat) (s : State), ∃ t, core.run k s = .next t

/-- Tier 2. Each step takes one input, keeps the configuration, and lets the run observe exactly the reads: a read appends
what it returned, and everything else returns 0 and appends nothing (40_host_access.md section 1,
70_reset_and_hazards.md section 5; the fields are notes/assumptions/3.md and 6.md's). -/
def Obligations.EachStepTakesOneInputAndLogsOnlyReads : Prop :=
  ∀ s t : State, step s = .next t →
    t.pending = s.pending.tail ∧ t.config = s.config ∧
    (∀ haw rest, s.pending = .access haw :: rest → haw.we = false → t.rdataLog = s.rdataLog ++ [t.hrdata]) ∧
    ((∀ haw rest, s.pending = .access haw :: rest → haw.we = true) → t.rdataLog = s.rdataLog ∧ t.hrdata = 0)

/-- Tier 3. Every step keeps the invariant: the frame and all emitted frames are well formed, FRAME is the last one emitted,
FIRST_CAUSE agrees with the flags, STEP and TOTAL fit `STEP_W` (10_state.md section 5, which marks R34 and R35
derived). -/
def Obligations.EveryStepKeepsTheInvariant : Prop :=
  ∀ s t : State, s.Inv → step s = .next t → t.Inv

/-- Tier 1. The reset state meets the invariant (10_state.md section 5). -/
def Obligations.ResetMeetsTheInvariant : Prop := State.reset.Inv

/-- Tier 2. The invariant holds in every reachable state: after any number of steps from reset under any inputs and any
legal configuration (10_state.md section 5: "In every reachable state"). It follows from `EveryStepKeepsTheInvariant` by
induction over the run; steps past the last input are idle ones, notes/assumptions/4.md. -/
def Obligations.EveryReachableStateMeetsTheInvariant : Prop :=
  ∀ (c : Config) (inputs : List HostInput) (k : Nat) (t : State), c.Legal →
    core.run k { State.reset with config := c, pending := inputs } = .next t → t.Inv

/-- Tier 2. `frame_strobe` pulses exactly on a successful ENCODE or LERP_ENC. A pulse goes with one new entry of `FRAMES_OUT`,
the frame that FRAME now holds; without a pulse neither changes, but for a reset (20_memory.md section 5, which marks
R63 derived; the field is notes/assumptions/5.md's). -/
def Obligations.FramesGoOutExactlyAtSuccessfulEncodes : Prop :=
  ∀ s t : State, step s = .next t →
    (t.frameStrobe = true ↔ s.NextOp .encode ∨ (s.NextOp .lerpEnc ∧ s.LerpOperandsLegal)) ∧
    (t.frameStrobe = true → t.framesOut = s.framesOut ++ [t.frame] ∧ t.frame = encodeFrame (unpack t.colorReg)) ∧
    (t.frameStrobe = false → s.NextReset ∨ (t.framesOut = s.framesOut ∧ t.frame = s.frame ∧ t.frameOut = s.frameOut))

/-- Tier 2. Who changes a register. START, END, STEP and TOTAL change only by their own host write or by reset; COLOR only by
its host write, a LERP or LERP_ENC whose operands are legal, or reset (10_state.md section 3, rules R24 to R28 each in
part). -/
def Obligations.RegistersChangeOnlyByTheirOwnAccesses : Prop :=
  ∀ s t : State, step s = .next t → ¬ s.NextReset →
    (t.startReg ≠ s.startReg → ∃ d, s.NextOp (.wrStart d)) ∧
    (t.endReg ≠ s.endReg → ∃ d, s.NextOp (.wrEnd d)) ∧
    (t.stepReg ≠ s.stepReg → ∃ d, s.NextOp (.wrStep d)) ∧
    (t.totalReg ≠ s.totalReg → ∃ d, s.NextOp (.wrTotal d)) ∧
    (t.colorReg ≠ s.colorReg →
      (∃ d, s.NextOp (.wrColor d)) ∨ ((s.NextOp .lerp ∨ s.NextOp .lerpEnc) ∧ s.LerpOperandsLegal))

/-- Tier 2, rule R32. A flag comes on only by an error of its cause, and goes off only by a write of 1 to its STATUS bit or by
reset; FIRST_CAUSE changes only in such a step. -/
def Obligations.FlagsAreStickyAndSetOnlyByErrors : Prop :=
  ∀ s t : State, step s = .next t →
    (∀ c : ErrorCause, s.errf &&& causeFlag c = 0 → t.errf &&& causeFlag c ≠ 0 → s.NextRaises c) ∧
    (∀ c : ErrorCause, s.errf &&& causeFlag c ≠ 0 → t.errf &&& causeFlag c = 0 →
      s.NextReset ∨ ∃ d, s.NextOp (.wrStatus d) ∧ clearMask d &&& causeFlag c ≠ 0) ∧
    (t.firstCause ≠ s.firstCause → (∃ c, s.NextRaises c) ∨ s.NextReset ∨ ∃ d, s.NextOp (.wrStatus d))

/-- Tier 2, rule R206. `err_o` is the level `STATUS[3:0] != 0`. It rises in the step that records the first error, with that
cause in FIRST_CAUSE and its flag alone set, and falls only in a write-1-to-clear of the last flags or a reset. -/
def Obligations.ErrOutputRisesAndFallsWithTheFlags : Prop :=
  ∀ s t : State, step s = .next t →
    (s.errO = true ↔ s.errf ≠ 0b0000) ∧
    (s.errO = false → (t.errO = true ↔ ∃ c, s.NextRaises c)) ∧
    (∀ c, s.errO = false → s.NextRaises c → t.firstCause = causeCode c ∧ t.errf = causeFlag c) ∧
    (s.errO = true →
      (t.errO = false ↔ s.NextReset ∨ ∃ d, s.NextOp (.wrStatus d) ∧ s.errf &&& ~~~(clearMask d) = 0b0000))

/-- Tier 2, rule R207. One access records only the first cause in the order BAD_ACCESS, CMD_RESERVED, TOTAL_ZERO, STEP_RANGE
whose condition it meets. The four conditions are written without regard to one another. -/
def Obligations.OnlyTheFirstCauseIsRecorded : Prop :=
  ∀ (haw : Haw) (s t : State), access haw s = .next t → (∀ d, decode haw ≠ .op (.wrStatus d)) →
    t.errf = s.errf |||
      (if haw.sz ≠ 0b10#2 ∨ haw.off.extractLsb' 0 2 ≠ 0b00#2 ∨ haw.off = 0x1C#8 ∨ 0x2C ≤ haw.off.toNat ∨
          (haw.we = true ∧ 0x20 ≤ haw.off.toNat) then 0b1000
        else if haw.we = true ∧ haw.off = 0x00#8 ∧ haw.data.extractLsb' 2 30 ≠ 0#30 then 0b0100
        else if haw.we = true ∧ haw.off = 0x00#8 ∧ haw.data.getLsbD 0 = true ∧ s.totalReg.toNat = 0 then 0b0001
        else if haw.we = true ∧ haw.off = 0x00#8 ∧ haw.data.getLsbD 0 = true ∧
          s.totalReg.toNat < s.stepReg.toNat then 0b0010
        else 0b0000)

/-- Tier 2. The Host cannot read `FRAMES_OUT`: replacing its contents changes nothing a step returns or does, but for the
entries of `FRAMES_OUT` themselves (10_state.md section 3, rule R31 in part). -/
def Obligations.FramesOutDoesNotInfluenceAnything : Prop :=
  ∀ (s t : State) (l : List Frame), step s = .next t →
    ∃ l', step { s with framesOut := l } = .next { t with framesOut := l' }

/-- Tier 2. An access depends only on the state record of rule R36, the configuration and the access word: two states that
agree on those give the same record and the same read data (40_host_access.md section 1). -/
def Obligations.AnAccessDependsOnlyOnTheRecordAndTheWord : Prop :=
  ∀ (haw : Haw) (s s' t t' : State), s.SameRecord s' → s.config = s'.config →
    access haw (s.beginStep s.pending) = .next t → access haw (s'.beginStep s'.pending) = .next t' →
      t.SameRecord t' ∧ t.hrdata = t'.hrdata ∧ t.frameStrobe = t'.frameStrobe ∧ t.errO = t'.errO

/-! ### Reads -/

/-- Tier 1, rule R101. RD_CMD returns 0 and changes nothing else. -/
def Obligations.ReadOfCmdReturnsZero : Prop :=
  ∀ s : State, exec .rdCmd s = .next { s with hrdata := 0x00000000, rdataLog := s.rdataLog ++ [0x00000000] }

/-- Tier 1, rule R102. RD_STATUS returns FIRST_CAUSE in [11:8], the flags in [3:0] and 0 elsewhere, and changes nothing
else. -/
def Obligations.ReadOfStatusReturnsCauseAndFlags : Prop :=
  ∀ s : State, ∃ w : Word, exec .rdStatus s = .next { s with hrdata := w, rdataLog := s.rdataLog ++ [w] } ∧
    w.extractLsb' 8 4 = s.firstCause ∧ w.extractLsb' 0 4 = s.errf ∧
    w.extractLsb' 4 4 = 0#4 ∧ w.extractLsb' 12 20 = 0#20

/-- Tier 1, rules R104, R106, R112. RD_START, RD_END and RD_COLOR return the 24-bit register with zeros above, and change
nothing else. -/
def Obligations.ReadsOfColorRegistersReturnThem : Prop :=
  ∀ s : State,
    (∃ w : Word, exec .rdStart s = .next { s with hrdata := w, rdataLog := s.rdataLog ++ [w] } ∧
      w.toNat = s.startReg.toNat) ∧
    (∃ w : Word, exec .rdEnd s = .next { s with hrdata := w, rdataLog := s.rdataLog ++ [w] } ∧
      w.toNat = s.endReg.toNat) ∧
    (∃ w : Word, exec .rdColor s = .next { s with hrdata := w, rdataLog := s.rdataLog ++ [w] } ∧
      w.toNat = s.colorReg.toNat)

/-- Tier 1, rules R108, R110. RD_STEP returns `zext_32(REG.STEP)` and RD_TOTAL returns `zext_32(REG.TOTAL)`, and they change
nothing else. -/
def Obligations.ReadsOfStepAndTotalReturnThem : Prop :=
  ∀ s : State,
    (∃ w : Word, exec .rdStep s = .next { s with hrdata := w, rdataLog := s.rdataLog ++ [w] } ∧
      w.toNat = s.stepReg.toNat) ∧
    (∃ w : Word, exec .rdTotal s = .next { s with hrdata := w, rdataLog := s.rdataLog ++ [w] } ∧
      w.toNat = s.totalReg.toNat)

/-- Tier 1, rules R114, R115, R116. RD_FRAME0, RD_FRAME1 and RD_FRAME2 return frame byte `4k+j` in byte lane `j` of word `k`,
and change nothing else. -/
def Obligations.ReadsOfFrameWordsReturnItsBytes : Prop :=
  ∀ s : State,
    (∃ w : Word, exec .rdFrame0 s = .next { s with hrdata := w, rdataLog := s.rdataLog ++ [w] } ∧
      w.extractLsb' 0 8 = s.frame[0] ∧ w.extractLsb' 8 8 = s.frame[1] ∧
      w.extractLsb' 16 8 = s.frame[2] ∧ w.extractLsb' 24 8 = s.frame[3]) ∧
    (∃ w : Word, exec .rdFrame1 s = .next { s with hrdata := w, rdataLog := s.rdataLog ++ [w] } ∧
      w.extractLsb' 0 8 = s.frame[4] ∧ w.extractLsb' 8 8 = s.frame[5] ∧
      w.extractLsb' 16 8 = s.frame[6] ∧ w.extractLsb' 24 8 = s.frame[7]) ∧
    (∃ w : Word, exec .rdFrame2 s = .next { s with hrdata := w, rdataLog := s.rdataLog ++ [w] } ∧
      w.extractLsb' 0 8 = s.frame[8] ∧ w.extractLsb' 8 8 = s.frame[9] ∧
      w.extractLsb' 16 8 = s.frame[10] ∧ w.extractLsb' 24 8 = s.frame[11])

/-- Tier 2. In every state that meets the invariant, FRAME0 reads 0x00000000, FRAME2 reads 0xFFFFFFFF and FRAME1's lowest
byte is the header 0xFF; and the bytes of the three words, as a little-endian host stores them, are the frame in wire
order (10_state.md section 5, 20_memory.md section 2). -/
def Obligations.FrameWordsReadAsTheWireOrder : Prop :=
  ∀ s : State, s.Inv →
    (∀ t, exec .rdFrame0 s = .next t → t.hrdata = 0x00000000) ∧
    (∀ t, exec .rdFrame1 s = .next t → t.hrdata.extractLsb' 0 8 = 0xFF#8) ∧
    (∀ t, exec .rdFrame2 s = .next t → t.hrdata = 0xFFFFFFFF) ∧
    [frameWord0 s.frame, frameWord1 s.frame, frameWord2 s.frame].flatMap littleEndianBytes = s.frame.toList ∧
    [frameWord0 s.frame, frameWord1 s.frame, frameWord2 s.frame].flatMap bigEndianBytes =
      [s.frame[3], s.frame[2], s.frame[1], s.frame[0], s.frame[7], s.frame[6], s.frame[5], s.frame[4],
        s.frame[11], s.frame[10], s.frame[9], s.frame[8]]

/-- Tier 2. What is written is read back, over two steps: START, END and COLOR keep DATA[23:0], STEP and TOTAL keep
DATA[STEP_W-1:0], and the bits above read as zero (20_memory.md section 3, 10_state.md section 3). -/
def Obligations.WhatIsWrittenIsReadBack : Prop :=
  ∀ (s : State) (d : Word) (rest : List HostInput), s.config.Legal →
    (∀ p ∈ [(Instr.wrStart d, Instr.rdStart), (Instr.wrEnd d, Instr.rdEnd), (Instr.wrColor d, Instr.rdColor)],
      s.pending = .access (encode p.1) :: .access (encode p.2) :: rest →
        ∃ t, core.run 2 s = .next t ∧ t.hrdata = d &&& 0x00FFFFFF) ∧
    (∀ p ∈ [(Instr.wrStep d, Instr.rdStep), (Instr.wrTotal d, Instr.rdTotal)],
      s.pending = .access (encode p.1) :: .access (encode p.2) :: rest →
        ∃ t, core.run 2 s = .next t ∧ t.hrdata.toNat = d.toNat % 2 ^ s.config.stepW)

/-! ### Writes -/

/-- Tier 1, rules R105, R107, R113. WR_START, WR_END and WR_COLOR set the three channels of their register from
DATA[23:0] and change nothing else; DATA[31:24] is ignored. -/
def Obligations.WritesOfColorRegistersSetThem : Prop :=
  ∀ (s : State) (d : Word), ∃ v : Rgb,
    unpack v = { r := d.extractLsb' 16 8, g := d.extractLsb' 8 8, b := d.extractLsb' 0 8 } ∧
    exec (.wrStart d) s = .next { s with startReg := v } ∧
    exec (.wrEnd d) s = .next { s with endReg := v } ∧
    exec (.wrColor d) s = .next { s with colorReg := v }

/-- Tier 2, rules R109, R111. WR_STEP and WR_TOTAL set their register to DATA[STEP_W-1:0] under every legal `STEP_W`, drop the
bits above without an error, and change nothing else. -/
def Obligations.WritesOfStepAndTotalTruncateToStepW : Prop :=
  ∀ (s : State) (d : Word), s.config.Legal → ∃ v : StepVal, v.toNat = d.toNat % 2 ^ s.config.stepW ∧
    exec (.wrStep d) s = .next { s with stepReg := v } ∧
    exec (.wrTotal d) s = .next { s with totalReg := v }

/-- Tier 1, rule R103. WR_STATUS clears every flag whose bit is 1 in DATA[3:0], and FIRST_CAUSE when no flag remains; nothing
else changes. -/
def Obligations.WriteOfStatusClearsTheFlagsWrittenAsOne : Prop :=
  ∀ (s : State) (d : Word), exec (.wrStatus d) s = .next { s with
    errf := s.errf &&& ~~~(d.extractLsb' 0 4)
    firstCause := if s.errf &&& ~~~(d.extractLsb' 0 4) = 0b0000 then 0 else s.firstCause }

/-- Tier 2. A host that writes 1 to every flag clears all of STATUS, and one that writes 0 to bits [3:0] changes nothing, in
every state that meets the invariant (40_host_access.md section 2, rule R103's corners). -/
def Obligations.StatusClearOfAllAndOfNone : Prop :=
  ∀ (s : State) (d : Word), s.Inv →
    (d.extractLsb' 0 4 = 0xF#4 → exec (.wrStatus d) s = .next { s with errf := 0, firstCause := 0 }) ∧
    (d.extractLsb' 0 4 = 0x0#4 → exec (.wrStatus d) s = .next s)

/-- Tier 2. The accesses that rule R56 (20_memory.md section 3) calls idempotent: done twice, the second leaves the state
record as the first left it. ENCODE and LERP_ENC, which it calls not idempotent, are the only operations left out. -/
def Obligations.EveryOperationButTheEmittingOnesIsIdempotent : Prop :=
  ∀ (i : Instr) (s t u : State), i ≠ .encode → i ≠ .lerpEnc →
    exec i s = .next t → exec i t = .next u → u.SameRecord t

/-! ### Commands -/

/-- Tier 1, rule R167. NOP changes nothing. -/
def Obligations.NopChangesNothing : Prop := ∀ s : State, exec .nop s = .next s

/-- Tier 1, rules R141, R143, R144. ENCODE builds the twelve bytes from COLOR, blue, green, red after the header, puts them in
FRAME, appends them to `FRAMES_OUT` and pulses `frame_strobe`; nothing else changes. -/
def Obligations.EncodeBuildsAndEmitsTheFrameOfColor : Prop :=
  ∀ s : State, ∃ f : Frame,
    f.toList = [0x00, 0x00, 0x00, 0x00, 0xFF, s.colorReg.extractLsb' 0 8, s.colorReg.extractLsb' 8 8,
      s.colorReg.extractLsb' 16 8, 0xFF, 0xFF, 0xFF, 0xFF] ∧
    exec .encode s = .next { s with frame := f, framesOut := s.framesOut ++ [f], frameStrobe := true }

/-- Tier 2, rules R160, R162, R163, R165. LERP writes to COLOR the exact blend of each 8-bit lane when TOTAL is not 0 and STEP
is at most TOTAL; with TOTAL = 0 it records cause 1 and with STEP > TOTAL cause 2, and then writes nothing else. -/
def Obligations.LerpWritesTheExactBlendOrRecordsAnError : Prop :=
  ∀ s : State,
    (s.totalReg.toNat ≠ 0 → s.stepReg.toNat ≤ s.totalReg.toNat →
      ∃ c : Rgb, exec .lerp s = .next { s with colorReg := c } ∧
        ∀ k ∈ [0, 8, 16], (c.extractLsb' k 8).toNat =
          ((s.startReg.extractLsb' k 8).toNat * (s.totalReg.toNat - s.stepReg.toNat) +
            (s.endReg.extractLsb' k 8).toNat * s.stepReg.toNat) / s.totalReg.toNat) ∧
    (s.totalReg.toNat = 0 → exec .lerp s = .next { s with
      errf := s.errf ||| 0b0001, firstCause := if s.errf = 0b0000 then 1 else s.firstCause }) ∧
    (s.totalReg.toNat ≠ 0 → s.totalReg.toNat < s.stepReg.toNat → exec .lerp s = .next { s with
      errf := s.errf ||| 0b0010, firstCause := if s.errf = 0b0000 then 2 else s.firstCause })

/-- Tier 2. LERP at step 0 gives START and at step TOTAL gives END, exactly; and a LERP of a pair of equal colors gives that
color (42_interpolator.md section 2, rule R165's corners; 90_conflicts.md C2). -/
def Obligations.LerpReachesBothEndpointsExactly : Prop :=
  ∀ s : State, s.totalReg.toNat ≠ 0 →
    (s.stepReg.toNat = 0 → exec .lerp s = .next { s with colorReg := s.startReg }) ∧
    (s.stepReg = s.totalReg → exec .lerp s = .next { s with colorReg := s.endReg }) ∧
    (s.startReg = s.endReg → s.stepReg.toNat ≤ s.totalReg.toNat →
      exec .lerp s = .next { s with colorReg := s.startReg })

/-- Tier 2, rule R166. LERP_ENC is LERP followed by ENCODE of the color LERP wrote, with nothing between; with an error of
the LERP part it is that error's record alone, and no frame is emitted. -/
def Obligations.LerpEncIsLerpThenEncode : Prop :=
  ∀ s : State,
    (s.LerpOperandsLegal → ∃ (c : Rgb) (f : Frame),
      exec .lerp s = .next { s with colorReg := c } ∧
      exec .encode { s with colorReg := c } = exec .lerpEnc s ∧
      f.toList = [0x00, 0x00, 0x00, 0x00, 0xFF, c.extractLsb' 0 8, c.extractLsb' 8 8, c.extractLsb' 16 8,
        0xFF, 0xFF, 0xFF, 0xFF] ∧
      (∀ k ∈ [0, 8, 16], (c.extractLsb' k 8).toNat =
          ((s.startReg.extractLsb' k 8).toNat * (s.totalReg.toNat - s.stepReg.toNat) +
            (s.endReg.extractLsb' k 8).toNat * s.stepReg.toNat) / s.totalReg.toNat) ∧
      exec .lerpEnc s = .next { s with
        colorReg := c, frame := f, framesOut := s.framesOut ++ [f], frameStrobe := true }) ∧
    (s.totalReg.toNat = 0 → exec .lerpEnc s = .next { s with
      errf := s.errf ||| 0b0001, firstCause := if s.errf = 0b0000 then 1 else s.firstCause }) ∧
    (s.totalReg.toNat ≠ 0 → s.totalReg.toNat < s.stepReg.toNat → exec .lerpEnc s = .next { s with
      errf := s.errf ||| 0b0010, firstCause := if s.errf = 0b0000 then 2 else s.firstCause })

/-- Tier 2. The operations that send nothing leave FRAME, `frame_out`, `FRAMES_OUT` and the strobe as they were: a Host that
runs LERP or writes COLOR and forgets ENCODE sends nothing new (70_reset_and_hazards.md section 3, which marks R243
derived). -/
def Obligations.OnlyEncodesTouchTheFrame : Prop :=
  ∀ (i : Instr) (s t : State), i ≠ .encode → i ≠ .lerpEnc → exec i s = .next t →
    t.frame = s.frame ∧ t.frameOut = s.frameOut ∧ t.framesOut = s.framesOut ∧ t.frameStrobe = s.frameStrobe

/-! ### The two pure functions -/

/-- Tier 2. `encode` of a color has the fixed markers and header whatever the color, blue, green and red at bytes 5 to 7, and
is injective (41_frame_encoder.md sections 1 and 3, which marks R148 derived). -/
def Obligations.FrameEncodingIsWellFormedAndInjective : Prop :=
  (∀ c : Color, FrameWellFormed (encodeFrame c) ∧ (encodeFrame c)[5] = c.b ∧ (encodeFrame c)[6] = c.g ∧
    (encodeFrame c)[7] = c.r) ∧
  (∀ c c' : Color, encodeFrame c = encodeFrame c' → c = c') ∧
  (∀ f : Frame, FrameWellFormed f → f = encodeFrame { r := f[7], g := f[6], b := f[5] })

/-- Tier 2. `frame_out` as a value is FRAME[0] first: stream bit `k` is bit `95-k` of it, and is bit `7 - (k mod 8)` of frame
byte `k div 8` (10_state.md section 3). The bit order within a byte is the spec's from general knowledge (G1;
notes/assumptions/7.md). -/
def Obligations.FrameOutStreamsByteZeroFirst : Prop :=
  ∀ (s : State) (k : Nat) (hk : k < 96),
    s.frameOut.getLsbD (95 - k) = s.streamBit ⟨k, hk⟩ ∧
    s.frameOut.getLsbD (95 - k) = (s.frame[k / 8]'(by omega)).getLsbD (7 - k % 8)

/-- Tier 2. `lerp8` is the exact quotient, rounded down, and lies between its end values: no narrowing changes it
(42_interpolator.md sections 1 and 3, which marks R161 and R169 derived). -/
def Obligations.ChannelBlendIsTheExactFloorBetweenItsEnds : Prop :=
  ∀ (min max : Byte) (s T : Nat), 1 ≤ T → s ≤ T →
    (lerp8 min max s T).toNat * T ≤ min.toNat * (T - s) + max.toNat * s ∧
    min.toNat * (T - s) + max.toNat * s < ((lerp8 min max s T).toNat + 1) * T ∧
    Nat.min min.toNat max.toNat ≤ (lerp8 min max s T).toNat ∧
    (lerp8 min max s T).toNat ≤ Nat.max min.toNat max.toNat

/-- Tier 2. `lerp8` is monotone in the step toward `max`, meets its ends, is symmetric, and is constant on equal ends
(42_interpolator.md section 3, R169 (a) to (d), marked derived). -/
def Obligations.ChannelBlendIsMonotoneAndSymmetric : Prop :=
  ∀ (min max : Byte) (T : Nat), 1 ≤ T →
    lerp8 min max 0 T = min ∧ lerp8 min max T T = max ∧
    (∀ s s', s ≤ s' → s' ≤ T → min.toNat ≤ max.toNat → (lerp8 min max s T).toNat ≤ (lerp8 min max s' T).toNat) ∧
    (∀ s s', s ≤ s' → s' ≤ T → max.toNat ≤ min.toNat → (lerp8 min max s' T).toNat ≤ (lerp8 min max s T).toNat) ∧
    (∀ s, s ≤ T → lerp8 min max s T = lerp8 max min (T - s) T ∧ lerp8 min min s T = min)

/-- Tier 2. The widths of an implementation: the numerator fits in `8 + STEP_W` bits, and the signed form
`min*T + (max-min)*s` equals it (42_interpolator.md section 1, which marks R164 derived). -/
def Obligations.BlendNumeratorFitsItsWidth : Prop :=
  ∀ (min max : Byte) (w s T : Nat), T < 2 ^ w → s ≤ T →
    lerpNumerator min max s T ≤ 255 * T ∧ lerpNumerator min max s T < 2 ^ (8 + w) ∧
    (lerpNumerator min max s T : Int) = (min.toNat : Int) * T + ((max.toNat : Int) - min.toNat) * s

/-- Tier 2. The envelope for the original floating-point software, which is no behaviour of CIFE: it gives `min` at step 0, a
value within 1 of `max` at step TOTAL, and at every step the exact value or one less (42_interpolator.md section 3,
rule R168, which the spec established only for T = 50). -/
def Obligations.SoftwareEnvelopeStaysWithinOne : Prop :=
  ∀ (min max v : Byte) (T : Nat), 1 ≤ T →
    (LerpSrc min max 0 T v → v = min) ∧
    (LerpSrc min max T T v → v.toNat ≤ max.toNat ∧ max.toNat ≤ v.toNat + 1) ∧
    (∀ s, s ≤ T → LerpSrc min max s T v →
      v.toNat ≤ (lerp8 min max s T).toNat ∧ (lerp8 min max s T).toNat ≤ v.toNat + 1)
end

