-- ==== Sys2Proof/Laws/Decode.lean ====
section
/-! SUPPORT. The fields of a host access word that `mkHaw` builds, a word rebuilt from its fields, and the register
map read in both directions. -/

namespace Sys2Proof

/-- One bit of a concatenation of four vectors. -/
theorem getLsbD_append_four {k l m n : Nat} (x : BitVec k) (y : BitVec l) (z : BitVec m) (w : BitVec n) (i : Nat) :
    (x ++ y ++ z ++ w).getLsbD i =
      if i < n then w.getLsbD i
      else if i - n < m then z.getLsbD (i - n)
      else if i - n - m < l then y.getLsbD (i - n - m) else x.getLsbD (i - n - m - l) := by
  simp only [BitVec.getLsbD_append]

/-- One bit of a host access word, by the field it lies in (rule R71). -/
theorem mkHaw_getLsbD (sz : BitVec 2) (we : Bool) (off : Byte) (d : Word) (i : Nat) :
    (mkHaw sz we off d).getLsbD i =
      if i < 32 then d.getLsbD i
      else if i - 32 < 8 then off.getLsbD (i - 32)
      else if i - 32 - 8 < 1 then (BitVec.ofBool we).getLsbD (i - 32 - 8) else sz.getLsbD (i - 32 - 8 - 1) :=
  getLsbD_append_four sz (BitVec.ofBool we) off d i

@[simp] theorem mkHaw_data (sz : BitVec 2) (we : Bool) (off : Byte) (d : Word) : (mkHaw sz we off d).data = d := by
  apply BitVec.eq_of_getLsbD_eq
  intro i hi
  simp [Haw.data, mkHaw_getLsbD, hi]

@[simp] theorem mkHaw_off (sz : BitVec 2) (we : Bool) (off : Byte) (d : Word) : (mkHaw sz we off d).off = off := by
  apply BitVec.eq_of_getLsbD_eq
  intro i hi
  simp [Haw.off, mkHaw_getLsbD, hi]

@[simp] theorem mkHaw_we (sz : BitVec 2) (we : Bool) (off : Byte) (d : Word) : (mkHaw sz we off d).we = we := by
  rw [Haw.we, mkHaw_getLsbD]
  simp

@[simp] theorem mkHaw_sz (sz : BitVec 2) (we : Bool) (off : Byte) (d : Word) : (mkHaw sz we off d).sz = sz := by
  apply BitVec.eq_of_getLsbD_eq
  intro i hi
  rw [Haw.sz, BitVec.getLsbD_extractLsb', mkHaw_getLsbD, if_neg (by omega), if_neg (by omega), if_neg (by omega),
    show 41 + i - 32 - 8 - 1 = i by omega]
  simp [hi]

/-- A host access word is its four fields. -/
theorem mkHaw_fields (haw : Haw) : mkHaw haw.sz haw.we haw.off haw.data = haw := by
  apply BitVec.eq_of_getLsbD_eq
  intro i hi
  rw [mkHaw_getLsbD]
  simp only [Haw.sz, Haw.we, Haw.off, Haw.data, BitVec.getLsbD_extractLsb', BitVec.getLsbD_ofBool]
  split
  · simp [*]
  · split
    · simp [*, show 32 + (i - 32) = i by omega]
    · split
      · have h40 : i = 40 := by omega
        simp [h40]
      · have hlt : i - 32 - 8 - 1 < 2 := by omega
        simp [hlt, show 41 + (i - 32 - 8 - 1) = i by omega]

/-- The register at a register's offset is that register. -/
@[simp] theorem regAt_offset (r : Reg) : regAt r.offset = some r := by
  cases r <;> decide

/-- A register found at an offset has that offset. -/
theorem offset_of_regAt {off : Byte} {r : Reg} (h : regAt off = some r) : r.offset = off := by
  unfold regAt at h
  repeat' (split at h; · next e => cases h; exact e.symm)
  cases h

/-- Every register's offset is a multiple of 4 (20_memory.md rule R52). -/
@[simp] theorem offset_aligned (r : Reg) : r.offset.extractLsb' 0 2 = 0b00#2 := by
  cases r <;> decide

/-- A 32-bit aligned access to a register decodes by its direction. -/
@[simp] theorem decode_mkHaw (we : Bool) (r : Reg) (d : Word) :
    decode (mkHaw 0b10#2 we r.offset d) = if we then decodeWrite d r else .op (decodeRead r) := by
  simp [decode]

/-- A word of another width or at a misaligned offset is `BAD_ACCESS` (rule R72). -/
theorem decode_of_bad_shape {haw : Haw} (h : ¬ (haw.sz = 0b10#2 ∧ haw.off.extractLsb' 0 2 = 0b00#2)) :
    decode haw = .error .badAccess := by
  simp only [decode, if_neg h]

/-- Everything a decoding can be, once: a refusal of the shape, of the offset, or a register's read or write. -/
theorem decode_cases (haw : Haw) :
    (¬ (haw.sz = 0b10#2 ∧ haw.off.extractLsb' 0 2 = 0b00#2) ∧ decode haw = .error .badAccess) ∨
    (haw.sz = 0b10#2 ∧ haw.off.extractLsb' 0 2 = 0b00#2 ∧ regAt haw.off = none ∧ decode haw = .error .badAccess) ∨
    (∃ r : Reg, haw.sz = 0b10#2 ∧ haw.off = r.offset ∧ haw.we = false ∧ decode haw = .op (decodeRead r)) ∨
    (∃ r : Reg, haw.sz = 0b10#2 ∧ haw.off = r.offset ∧ haw.we = true ∧ decode haw = decodeWrite haw.data r) := by
  by_cases h : haw.sz = 0b10#2 ∧ haw.off.extractLsb' 0 2 = 0b00#2
  · cases hr : regAt haw.off with
    | none => exact .inr (.inl ⟨h.1, h.2, rfl, by simp [decode, h, hr]⟩)
    | some r =>
      have ho := (offset_of_regAt hr).symm
      cases hw : haw.we with
      | false => exact .inr (.inr (.inl ⟨r, h.1, ho, rfl, by simp [decode, h, hr, hw]⟩))
      | true => exact .inr (.inr (.inr ⟨r, h.1, ho, rfl, by simp [decode, h, hr, hw]⟩))
  · exact .inl ⟨h, decode_of_bad_shape h⟩

/-- What a CMD word can decode to: the four operations by value, or `CMD_RESERVED` (rule R74). -/
theorem decodeCmd_cases (d : Word) :
    (d = 0 ∧ decodeCmd d = .op .nop) ∨ (d = 1 ∧ decodeCmd d = .op .lerp) ∨
    (d = 2 ∧ decodeCmd d = .op .encode) ∨ (d = 3 ∧ decodeCmd d = .op .lerpEnc) ∨
    (3 < d.toNat ∧ d.extractLsb' 2 30 ≠ 0#30 ∧ decodeCmd d = .error .cmdReserved) := by
  by_cases h : d.toNat ≤ 3
  · have : d = BitVec.ofNat 32 d.toNat := by simp
    generalize d.toNat = n at *
    subst this
    match n, h with
    | 0, _ => exact .inl (by decide)
    | 1, _ => exact .inr (.inl (by decide))
    | 2, _ => exact .inr (.inr (.inl (by decide)))
    | 3, _ => exact .inr (.inr (.inr (.inl (by decide))))
  · have hne : d.extractLsb' 2 30 ≠ 0#30 := by
      intro h0
      have := congrArg BitVec.toNat h0
      simp [BitVec.extractLsb'_toNat, Nat.shiftRight_eq_div_pow] at this
      have := d.isLt
      omega
    exact .inr (.inr (.inr (.inr ⟨by omega, hne, by simp only [decodeCmd, if_neg hne]⟩)))

end Sys2Proof
end

