-- ==== Sys2Proof/Laws/State.lean ====
section
/-! SUPPORT. One lemma per field per update of the state, true by unfolding, so that no later proof unfolds a record update. -/

namespace Sys2Proof.Machine

/-! `State.writeStart` -/

@[simp] theorem State.writeStart_startReg (s : State) (v : Rgb) : (s.writeStart v).startReg = v := rfl
@[simp] theorem State.writeStart_endReg (s : State) (v : Rgb) : (s.writeStart v).endReg = s.endReg := rfl
@[simp] theorem State.writeStart_stepReg (s : State) (v : Rgb) : (s.writeStart v).stepReg = s.stepReg := rfl
@[simp] theorem State.writeStart_totalReg (s : State) (v : Rgb) : (s.writeStart v).totalReg = s.totalReg := rfl
@[simp] theorem State.writeStart_colorReg (s : State) (v : Rgb) : (s.writeStart v).colorReg = s.colorReg := rfl
@[simp] theorem State.writeStart_frame (s : State) (v : Rgb) : (s.writeStart v).frame = s.frame := rfl
@[simp] theorem State.writeStart_errf (s : State) (v : Rgb) : (s.writeStart v).errf = s.errf := rfl
@[simp] theorem State.writeStart_firstCause (s : State) (v : Rgb) : (s.writeStart v).firstCause = s.firstCause := rfl
@[simp] theorem State.writeStart_framesOut (s : State) (v : Rgb) : (s.writeStart v).framesOut = s.framesOut := rfl
@[simp] theorem State.writeStart_frameStrobe (s : State) (v : Rgb) : (s.writeStart v).frameStrobe = s.frameStrobe := rfl
@[simp] theorem State.writeStart_hrdata (s : State) (v : Rgb) : (s.writeStart v).hrdata = s.hrdata := rfl
@[simp] theorem State.writeStart_rdataLog (s : State) (v : Rgb) : (s.writeStart v).rdataLog = s.rdataLog := rfl
@[simp] theorem State.writeStart_config (s : State) (v : Rgb) : (s.writeStart v).config = s.config := rfl
@[simp] theorem State.writeStart_pending (s : State) (v : Rgb) : (s.writeStart v).pending = s.pending := rfl

/-! `State.writeEnd` -/

@[simp] theorem State.writeEnd_startReg (s : State) (v : Rgb) : (s.writeEnd v).startReg = s.startReg := rfl
@[simp] theorem State.writeEnd_endReg (s : State) (v : Rgb) : (s.writeEnd v).endReg = v := rfl
@[simp] theorem State.writeEnd_stepReg (s : State) (v : Rgb) : (s.writeEnd v).stepReg = s.stepReg := rfl
@[simp] theorem State.writeEnd_totalReg (s : State) (v : Rgb) : (s.writeEnd v).totalReg = s.totalReg := rfl
@[simp] theorem State.writeEnd_colorReg (s : State) (v : Rgb) : (s.writeEnd v).colorReg = s.colorReg := rfl
@[simp] theorem State.writeEnd_frame (s : State) (v : Rgb) : (s.writeEnd v).frame = s.frame := rfl
@[simp] theorem State.writeEnd_errf (s : State) (v : Rgb) : (s.writeEnd v).errf = s.errf := rfl
@[simp] theorem State.writeEnd_firstCause (s : State) (v : Rgb) : (s.writeEnd v).firstCause = s.firstCause := rfl
@[simp] theorem State.writeEnd_framesOut (s : State) (v : Rgb) : (s.writeEnd v).framesOut = s.framesOut := rfl
@[simp] theorem State.writeEnd_frameStrobe (s : State) (v : Rgb) : (s.writeEnd v).frameStrobe = s.frameStrobe := rfl
@[simp] theorem State.writeEnd_hrdata (s : State) (v : Rgb) : (s.writeEnd v).hrdata = s.hrdata := rfl
@[simp] theorem State.writeEnd_rdataLog (s : State) (v : Rgb) : (s.writeEnd v).rdataLog = s.rdataLog := rfl
@[simp] theorem State.writeEnd_config (s : State) (v : Rgb) : (s.writeEnd v).config = s.config := rfl
@[simp] theorem State.writeEnd_pending (s : State) (v : Rgb) : (s.writeEnd v).pending = s.pending := rfl

/-! `State.writeStep` -/

@[simp] theorem State.writeStep_startReg (s : State) (v : StepVal) : (s.writeStep v).startReg = s.startReg := rfl
@[simp] theorem State.writeStep_endReg (s : State) (v : StepVal) : (s.writeStep v).endReg = s.endReg := rfl
@[simp] theorem State.writeStep_stepReg (s : State) (v : StepVal) : (s.writeStep v).stepReg = v := rfl
@[simp] theorem State.writeStep_totalReg (s : State) (v : StepVal) : (s.writeStep v).totalReg = s.totalReg := rfl
@[simp] theorem State.writeStep_colorReg (s : State) (v : StepVal) : (s.writeStep v).colorReg = s.colorReg := rfl
@[simp] theorem State.writeStep_frame (s : State) (v : StepVal) : (s.writeStep v).frame = s.frame := rfl
@[simp] theorem State.writeStep_errf (s : State) (v : StepVal) : (s.writeStep v).errf = s.errf := rfl
@[simp] theorem State.writeStep_firstCause (s : State) (v : StepVal) : (s.writeStep v).firstCause = s.firstCause := rfl
@[simp] theorem State.writeStep_framesOut (s : State) (v : StepVal) : (s.writeStep v).framesOut = s.framesOut := rfl
@[simp] theorem State.writeStep_frameStrobe (s : State) (v : StepVal) : (s.writeStep v).frameStrobe = s.frameStrobe := rfl
@[simp] theorem State.writeStep_hrdata (s : State) (v : StepVal) : (s.writeStep v).hrdata = s.hrdata := rfl
@[simp] theorem State.writeStep_rdataLog (s : State) (v : StepVal) : (s.writeStep v).rdataLog = s.rdataLog := rfl
@[simp] theorem State.writeStep_config (s : State) (v : StepVal) : (s.writeStep v).config = s.config := rfl
@[simp] theorem State.writeStep_pending (s : State) (v : StepVal) : (s.writeStep v).pending = s.pending := rfl

/-! `State.writeTotal` -/

@[simp] theorem State.writeTotal_startReg (s : State) (v : StepVal) : (s.writeTotal v).startReg = s.startReg := rfl
@[simp] theorem State.writeTotal_endReg (s : State) (v : StepVal) : (s.writeTotal v).endReg = s.endReg := rfl
@[simp] theorem State.writeTotal_stepReg (s : State) (v : StepVal) : (s.writeTotal v).stepReg = s.stepReg := rfl
@[simp] theorem State.writeTotal_totalReg (s : State) (v : StepVal) : (s.writeTotal v).totalReg = v := rfl
@[simp] theorem State.writeTotal_colorReg (s : State) (v : StepVal) : (s.writeTotal v).colorReg = s.colorReg := rfl
@[simp] theorem State.writeTotal_frame (s : State) (v : StepVal) : (s.writeTotal v).frame = s.frame := rfl
@[simp] theorem State.writeTotal_errf (s : State) (v : StepVal) : (s.writeTotal v).errf = s.errf := rfl
@[simp] theorem State.writeTotal_firstCause (s : State) (v : StepVal) : (s.writeTotal v).firstCause = s.firstCause := rfl
@[simp] theorem State.writeTotal_framesOut (s : State) (v : StepVal) : (s.writeTotal v).framesOut = s.framesOut := rfl
@[simp] theorem State.writeTotal_frameStrobe (s : State) (v : StepVal) : (s.writeTotal v).frameStrobe = s.frameStrobe := rfl
@[simp] theorem State.writeTotal_hrdata (s : State) (v : StepVal) : (s.writeTotal v).hrdata = s.hrdata := rfl
@[simp] theorem State.writeTotal_rdataLog (s : State) (v : StepVal) : (s.writeTotal v).rdataLog = s.rdataLog := rfl
@[simp] theorem State.writeTotal_config (s : State) (v : StepVal) : (s.writeTotal v).config = s.config := rfl
@[simp] theorem State.writeTotal_pending (s : State) (v : StepVal) : (s.writeTotal v).pending = s.pending := rfl

/-! `State.writeColor` -/

@[simp] theorem State.writeColor_startReg (s : State) (v : Rgb) : (s.writeColor v).startReg = s.startReg := rfl
@[simp] theorem State.writeColor_endReg (s : State) (v : Rgb) : (s.writeColor v).endReg = s.endReg := rfl
@[simp] theorem State.writeColor_stepReg (s : State) (v : Rgb) : (s.writeColor v).stepReg = s.stepReg := rfl
@[simp] theorem State.writeColor_totalReg (s : State) (v : Rgb) : (s.writeColor v).totalReg = s.totalReg := rfl
@[simp] theorem State.writeColor_colorReg (s : State) (v : Rgb) : (s.writeColor v).colorReg = v := rfl
@[simp] theorem State.writeColor_frame (s : State) (v : Rgb) : (s.writeColor v).frame = s.frame := rfl
@[simp] theorem State.writeColor_errf (s : State) (v : Rgb) : (s.writeColor v).errf = s.errf := rfl
@[simp] theorem State.writeColor_firstCause (s : State) (v : Rgb) : (s.writeColor v).firstCause = s.firstCause := rfl
@[simp] theorem State.writeColor_framesOut (s : State) (v : Rgb) : (s.writeColor v).framesOut = s.framesOut := rfl
@[simp] theorem State.writeColor_frameStrobe (s : State) (v : Rgb) : (s.writeColor v).frameStrobe = s.frameStrobe := rfl
@[simp] theorem State.writeColor_hrdata (s : State) (v : Rgb) : (s.writeColor v).hrdata = s.hrdata := rfl
@[simp] theorem State.writeColor_rdataLog (s : State) (v : Rgb) : (s.writeColor v).rdataLog = s.rdataLog := rfl
@[simp] theorem State.writeColor_config (s : State) (v : Rgb) : (s.writeColor v).config = s.config := rfl
@[simp] theorem State.writeColor_pending (s : State) (v : Rgb) : (s.writeColor v).pending = s.pending := rfl

/-! `State.writeFrame` -/

@[simp] theorem State.writeFrame_startReg (s : State) (f : Frame) : (s.writeFrame f).startReg = s.startReg := rfl
@[simp] theorem State.writeFrame_endReg (s : State) (f : Frame) : (s.writeFrame f).endReg = s.endReg := rfl
@[simp] theorem State.writeFrame_stepReg (s : State) (f : Frame) : (s.writeFrame f).stepReg = s.stepReg := rfl
@[simp] theorem State.writeFrame_totalReg (s : State) (f : Frame) : (s.writeFrame f).totalReg = s.totalReg := rfl
@[simp] theorem State.writeFrame_colorReg (s : State) (f : Frame) : (s.writeFrame f).colorReg = s.colorReg := rfl
@[simp] theorem State.writeFrame_frame (s : State) (f : Frame) : (s.writeFrame f).frame = f := rfl
@[simp] theorem State.writeFrame_errf (s : State) (f : Frame) : (s.writeFrame f).errf = s.errf := rfl
@[simp] theorem State.writeFrame_firstCause (s : State) (f : Frame) : (s.writeFrame f).firstCause = s.firstCause := rfl
@[simp] theorem State.writeFrame_framesOut (s : State) (f : Frame) : (s.writeFrame f).framesOut = s.framesOut := rfl
@[simp] theorem State.writeFrame_frameStrobe (s : State) (f : Frame) : (s.writeFrame f).frameStrobe = s.frameStrobe := rfl
@[simp] theorem State.writeFrame_hrdata (s : State) (f : Frame) : (s.writeFrame f).hrdata = s.hrdata := rfl
@[simp] theorem State.writeFrame_rdataLog (s : State) (f : Frame) : (s.writeFrame f).rdataLog = s.rdataLog := rfl
@[simp] theorem State.writeFrame_config (s : State) (f : Frame) : (s.writeFrame f).config = s.config := rfl
@[simp] theorem State.writeFrame_pending (s : State) (f : Frame) : (s.writeFrame f).pending = s.pending := rfl

/-! `State.emit` -/

@[simp] theorem State.emit_startReg (s : State) (f : Frame) : (s.emit f).startReg = s.startReg := rfl
@[simp] theorem State.emit_endReg (s : State) (f : Frame) : (s.emit f).endReg = s.endReg := rfl
@[simp] theorem State.emit_stepReg (s : State) (f : Frame) : (s.emit f).stepReg = s.stepReg := rfl
@[simp] theorem State.emit_totalReg (s : State) (f : Frame) : (s.emit f).totalReg = s.totalReg := rfl
@[simp] theorem State.emit_colorReg (s : State) (f : Frame) : (s.emit f).colorReg = s.colorReg := rfl
@[simp] theorem State.emit_frame (s : State) (f : Frame) : (s.emit f).frame = s.frame := rfl
@[simp] theorem State.emit_errf (s : State) (f : Frame) : (s.emit f).errf = s.errf := rfl
@[simp] theorem State.emit_firstCause (s : State) (f : Frame) : (s.emit f).firstCause = s.firstCause := rfl
@[simp] theorem State.emit_framesOut (s : State) (f : Frame) : (s.emit f).framesOut = s.framesOut ++ [f] := rfl
@[simp] theorem State.emit_frameStrobe (s : State) (f : Frame) : (s.emit f).frameStrobe = true := rfl
@[simp] theorem State.emit_hrdata (s : State) (f : Frame) : (s.emit f).hrdata = s.hrdata := rfl
@[simp] theorem State.emit_rdataLog (s : State) (f : Frame) : (s.emit f).rdataLog = s.rdataLog := rfl
@[simp] theorem State.emit_config (s : State) (f : Frame) : (s.emit f).config = s.config := rfl
@[simp] theorem State.emit_pending (s : State) (f : Frame) : (s.emit f).pending = s.pending := rfl

/-! `State.returnData` -/

@[simp] theorem State.returnData_startReg (s : State) (v : Word) : (s.returnData v).startReg = s.startReg := rfl
@[simp] theorem State.returnData_endReg (s : State) (v : Word) : (s.returnData v).endReg = s.endReg := rfl
@[simp] theorem State.returnData_stepReg (s : State) (v : Word) : (s.returnData v).stepReg = s.stepReg := rfl
@[simp] theorem State.returnData_totalReg (s : State) (v : Word) : (s.returnData v).totalReg = s.totalReg := rfl
@[simp] theorem State.returnData_colorReg (s : State) (v : Word) : (s.returnData v).colorReg = s.colorReg := rfl
@[simp] theorem State.returnData_frame (s : State) (v : Word) : (s.returnData v).frame = s.frame := rfl
@[simp] theorem State.returnData_errf (s : State) (v : Word) : (s.returnData v).errf = s.errf := rfl
@[simp] theorem State.returnData_firstCause (s : State) (v : Word) : (s.returnData v).firstCause = s.firstCause := rfl
@[simp] theorem State.returnData_framesOut (s : State) (v : Word) : (s.returnData v).framesOut = s.framesOut := rfl
@[simp] theorem State.returnData_frameStrobe (s : State) (v : Word) : (s.returnData v).frameStrobe = s.frameStrobe := rfl
@[simp] theorem State.returnData_hrdata (s : State) (v : Word) : (s.returnData v).hrdata = v := rfl
@[simp] theorem State.returnData_rdataLog (s : State) (v : Word) : (s.returnData v).rdataLog = s.rdataLog ++ [v] := rfl
@[simp] theorem State.returnData_config (s : State) (v : Word) : (s.returnData v).config = s.config := rfl
@[simp] theorem State.returnData_pending (s : State) (v : Word) : (s.returnData v).pending = s.pending := rfl

/-! `State.recordError` -/

@[simp] theorem State.recordError_startReg (s : State) (c : ErrorCause) : (s.recordError c).startReg = s.startReg := rfl
@[simp] theorem State.recordError_endReg (s : State) (c : ErrorCause) : (s.recordError c).endReg = s.endReg := rfl
@[simp] theorem State.recordError_stepReg (s : State) (c : ErrorCause) : (s.recordError c).stepReg = s.stepReg := rfl
@[simp] theorem State.recordError_totalReg (s : State) (c : ErrorCause) : (s.recordError c).totalReg = s.totalReg := rfl
@[simp] theorem State.recordError_colorReg (s : State) (c : ErrorCause) : (s.recordError c).colorReg = s.colorReg := rfl
@[simp] theorem State.recordError_frame (s : State) (c : ErrorCause) : (s.recordError c).frame = s.frame := rfl
@[simp] theorem State.recordError_errf (s : State) (c : ErrorCause) : (s.recordError c).errf = errfAfterError c s.errf := rfl
@[simp] theorem State.recordError_firstCause (s : State) (c : ErrorCause) : (s.recordError c).firstCause = firstCauseAfterError c s.errf s.firstCause := rfl
@[simp] theorem State.recordError_framesOut (s : State) (c : ErrorCause) : (s.recordError c).framesOut = s.framesOut := rfl
@[simp] theorem State.recordError_frameStrobe (s : State) (c : ErrorCause) : (s.recordError c).frameStrobe = s.frameStrobe := rfl
@[simp] theorem State.recordError_hrdata (s : State) (c : ErrorCause) : (s.recordError c).hrdata = s.hrdata := rfl
@[simp] theorem State.recordError_rdataLog (s : State) (c : ErrorCause) : (s.recordError c).rdataLog = s.rdataLog := rfl
@[simp] theorem State.recordError_config (s : State) (c : ErrorCause) : (s.recordError c).config = s.config := rfl
@[simp] theorem State.recordError_pending (s : State) (c : ErrorCause) : (s.recordError c).pending = s.pending := rfl

/-! `State.clearErrors` -/

@[simp] theorem State.clearErrors_startReg (s : State) (m : Nibble) : (s.clearErrors m).startReg = s.startReg := rfl
@[simp] theorem State.clearErrors_endReg (s : State) (m : Nibble) : (s.clearErrors m).endReg = s.endReg := rfl
@[simp] theorem State.clearErrors_stepReg (s : State) (m : Nibble) : (s.clearErrors m).stepReg = s.stepReg := rfl
@[simp] theorem State.clearErrors_totalReg (s : State) (m : Nibble) : (s.clearErrors m).totalReg = s.totalReg := rfl
@[simp] theorem State.clearErrors_colorReg (s : State) (m : Nibble) : (s.clearErrors m).colorReg = s.colorReg := rfl
@[simp] theorem State.clearErrors_frame (s : State) (m : Nibble) : (s.clearErrors m).frame = s.frame := rfl
@[simp] theorem State.clearErrors_errf (s : State) (m : Nibble) : (s.clearErrors m).errf = errfAfterClear m s.errf := rfl
@[simp] theorem State.clearErrors_firstCause (s : State) (m : Nibble) : (s.clearErrors m).firstCause = firstCauseAfterClear m s.errf s.firstCause := rfl
@[simp] theorem State.clearErrors_framesOut (s : State) (m : Nibble) : (s.clearErrors m).framesOut = s.framesOut := rfl
@[simp] theorem State.clearErrors_frameStrobe (s : State) (m : Nibble) : (s.clearErrors m).frameStrobe = s.frameStrobe := rfl
@[simp] theorem State.clearErrors_hrdata (s : State) (m : Nibble) : (s.clearErrors m).hrdata = s.hrdata := rfl
@[simp] theorem State.clearErrors_rdataLog (s : State) (m : Nibble) : (s.clearErrors m).rdataLog = s.rdataLog := rfl
@[simp] theorem State.clearErrors_config (s : State) (m : Nibble) : (s.clearErrors m).config = s.config := rfl
@[simp] theorem State.clearErrors_pending (s : State) (m : Nibble) : (s.clearErrors m).pending = s.pending := rfl

/-! `State.encodeAndEmit` -/

@[simp] theorem State.encodeAndEmit_startReg (s : State) : (s.encodeAndEmit).startReg = s.startReg := rfl
@[simp] theorem State.encodeAndEmit_endReg (s : State) : (s.encodeAndEmit).endReg = s.endReg := rfl
@[simp] theorem State.encodeAndEmit_stepReg (s : State) : (s.encodeAndEmit).stepReg = s.stepReg := rfl
@[simp] theorem State.encodeAndEmit_totalReg (s : State) : (s.encodeAndEmit).totalReg = s.totalReg := rfl
@[simp] theorem State.encodeAndEmit_colorReg (s : State) : (s.encodeAndEmit).colorReg = s.colorReg := rfl
@[simp] theorem State.encodeAndEmit_frame (s : State) : (s.encodeAndEmit).frame = encodeFrame (unpack s.colorReg) := rfl
@[simp] theorem State.encodeAndEmit_errf (s : State) : (s.encodeAndEmit).errf = s.errf := rfl
@[simp] theorem State.encodeAndEmit_firstCause (s : State) : (s.encodeAndEmit).firstCause = s.firstCause := rfl
@[simp] theorem State.encodeAndEmit_framesOut (s : State) : (s.encodeAndEmit).framesOut = s.framesOut ++ [encodeFrame (unpack s.colorReg)] := rfl
@[simp] theorem State.encodeAndEmit_frameStrobe (s : State) : (s.encodeAndEmit).frameStrobe = true := rfl
@[simp] theorem State.encodeAndEmit_hrdata (s : State) : (s.encodeAndEmit).hrdata = s.hrdata := rfl
@[simp] theorem State.encodeAndEmit_rdataLog (s : State) : (s.encodeAndEmit).rdataLog = s.rdataLog := rfl
@[simp] theorem State.encodeAndEmit_config (s : State) : (s.encodeAndEmit).config = s.config := rfl
@[simp] theorem State.encodeAndEmit_pending (s : State) : (s.encodeAndEmit).pending = s.pending := rfl

/-! `State.beginStep` -/

@[simp] theorem State.beginStep_startReg (s : State) (rest : List HostInput) : (s.beginStep rest).startReg = s.startReg := rfl
@[simp] theorem State.beginStep_endReg (s : State) (rest : List HostInput) : (s.beginStep rest).endReg = s.endReg := rfl
@[simp] theorem State.beginStep_stepReg (s : State) (rest : List HostInput) : (s.beginStep rest).stepReg = s.stepReg := rfl
@[simp] theorem State.beginStep_totalReg (s : State) (rest : List HostInput) : (s.beginStep rest).totalReg = s.totalReg := rfl
@[simp] theorem State.beginStep_colorReg (s : State) (rest : List HostInput) : (s.beginStep rest).colorReg = s.colorReg := rfl
@[simp] theorem State.beginStep_frame (s : State) (rest : List HostInput) : (s.beginStep rest).frame = s.frame := rfl
@[simp] theorem State.beginStep_errf (s : State) (rest : List HostInput) : (s.beginStep rest).errf = s.errf := rfl
@[simp] theorem State.beginStep_firstCause (s : State) (rest : List HostInput) : (s.beginStep rest).firstCause = s.firstCause := rfl
@[simp] theorem State.beginStep_framesOut (s : State) (rest : List HostInput) : (s.beginStep rest).framesOut = s.framesOut := rfl
@[simp] theorem State.beginStep_frameStrobe (s : State) (rest : List HostInput) : (s.beginStep rest).frameStrobe = false := rfl
@[simp] theorem State.beginStep_hrdata (s : State) (rest : List HostInput) : (s.beginStep rest).hrdata = 0x00000000 := rfl
@[simp] theorem State.beginStep_rdataLog (s : State) (rest : List HostInput) : (s.beginStep rest).rdataLog = s.rdataLog := rfl
@[simp] theorem State.beginStep_config (s : State) (rest : List HostInput) : (s.beginStep rest).config = s.config := rfl
@[simp] theorem State.beginStep_pending (s : State) (rest : List HostInput) : (s.beginStep rest).pending = rest := rfl

/-! `State.applyReset` -/

@[simp] theorem State.applyReset_startReg (s : State) : (s.applyReset).startReg = State.reset.startReg := rfl
@[simp] theorem State.applyReset_endReg (s : State) : (s.applyReset).endReg = State.reset.endReg := rfl
@[simp] theorem State.applyReset_stepReg (s : State) : (s.applyReset).stepReg = State.reset.stepReg := rfl
@[simp] theorem State.applyReset_totalReg (s : State) : (s.applyReset).totalReg = State.reset.totalReg := rfl
@[simp] theorem State.applyReset_colorReg (s : State) : (s.applyReset).colorReg = State.reset.colorReg := rfl
@[simp] theorem State.applyReset_frame (s : State) : (s.applyReset).frame = State.reset.frame := rfl
@[simp] theorem State.applyReset_errf (s : State) : (s.applyReset).errf = State.reset.errf := rfl
@[simp] theorem State.applyReset_firstCause (s : State) : (s.applyReset).firstCause = State.reset.firstCause := rfl
@[simp] theorem State.applyReset_framesOut (s : State) : (s.applyReset).framesOut = State.reset.framesOut := rfl
@[simp] theorem State.applyReset_frameStrobe (s : State) : (s.applyReset).frameStrobe = State.reset.frameStrobe := rfl
@[simp] theorem State.applyReset_hrdata (s : State) : (s.applyReset).hrdata = State.reset.hrdata := rfl
@[simp] theorem State.applyReset_rdataLog (s : State) : (s.applyReset).rdataLog = s.rdataLog := rfl
@[simp] theorem State.applyReset_config (s : State) : (s.applyReset).config = s.config := rfl
@[simp] theorem State.applyReset_pending (s : State) : (s.applyReset).pending = s.pending := rfl

/-! `State.withFetchWord` -/

@[simp] theorem State.withFetchWord_startReg (s : State) (n w : Nat) : (s.withFetchWord n w).startReg = s.startReg := rfl
@[simp] theorem State.withFetchWord_endReg (s : State) (n w : Nat) : (s.withFetchWord n w).endReg = s.endReg := rfl
@[simp] theorem State.withFetchWord_stepReg (s : State) (n w : Nat) : (s.withFetchWord n w).stepReg = s.stepReg := rfl
@[simp] theorem State.withFetchWord_totalReg (s : State) (n w : Nat) : (s.withFetchWord n w).totalReg = s.totalReg := rfl
@[simp] theorem State.withFetchWord_colorReg (s : State) (n w : Nat) : (s.withFetchWord n w).colorReg = s.colorReg := rfl
@[simp] theorem State.withFetchWord_frame (s : State) (n w : Nat) : (s.withFetchWord n w).frame = s.frame := rfl
@[simp] theorem State.withFetchWord_errf (s : State) (n w : Nat) : (s.withFetchWord n w).errf = s.errf := rfl
@[simp] theorem State.withFetchWord_firstCause (s : State) (n w : Nat) : (s.withFetchWord n w).firstCause = s.firstCause := rfl
@[simp] theorem State.withFetchWord_framesOut (s : State) (n w : Nat) : (s.withFetchWord n w).framesOut = s.framesOut := rfl
@[simp] theorem State.withFetchWord_frameStrobe (s : State) (n w : Nat) : (s.withFetchWord n w).frameStrobe = s.frameStrobe := rfl
@[simp] theorem State.withFetchWord_hrdata (s : State) (n w : Nat) : (s.withFetchWord n w).hrdata = s.hrdata := rfl
@[simp] theorem State.withFetchWord_rdataLog (s : State) (n w : Nat) : (s.withFetchWord n w).rdataLog = s.rdataLog := rfl
@[simp] theorem State.withFetchWord_config (s : State) (n w : Nat) : (s.withFetchWord n w).config = s.config := rfl
@[simp] theorem State.withFetchWord_pending (s : State) (n w : Nat) : (s.withFetchWord n w).pending = tableInput w :: s.pending := rfl

/-! The reset state -/

@[simp] theorem State.reset_startReg : State.reset.startReg = 0 := rfl
@[simp] theorem State.reset_endReg : State.reset.endReg = 0 := rfl
@[simp] theorem State.reset_stepReg : State.reset.stepReg = 0 := rfl
@[simp] theorem State.reset_totalReg : State.reset.totalReg = 0 := rfl
@[simp] theorem State.reset_colorReg : State.reset.colorReg = 0 := rfl
@[simp] theorem State.reset_errf : State.reset.errf = 0 := rfl
@[simp] theorem State.reset_firstCause : State.reset.firstCause = 0 := rfl
@[simp] theorem State.reset_framesOut : State.reset.framesOut = [] := rfl
@[simp] theorem State.reset_frameStrobe : State.reset.frameStrobe = false := rfl
@[simp] theorem State.reset_hrdata : State.reset.hrdata = 0 := rfl
@[simp] theorem State.reset_rdataLog : State.reset.rdataLog = [] := rfl
@[simp] theorem State.reset_config : State.reset.config = Config.thisHardware := rfl
@[simp] theorem State.reset_pending : State.reset.pending = [] := rfl

end Sys2Proof.Machine
end

