-- ==== Sys2Proof/Laws/Exec.lean ====
section
/-! SUPPORT. What each operation does, once: its unfolding, the operand checks of a LERP, what the flag computations do,
and the inversion of `exec`, `access` and `step` that later proofs cite instead of unfolding them. -/

namespace Sys2Proof.Machine

/-! ### One unfolding per operation -/

@[simp] theorem exec_rdCmd (s : State) : exec .rdCmd s = .next (s.returnData 0) := rfl
@[simp] theorem exec_rdStatus (s : State) : exec .rdStatus s = .next (s.returnData s.status) := rfl
@[simp] theorem exec_rdStart (s : State) : exec .rdStart s = .next (s.returnData (colorWord s.startReg)) := rfl
@[simp] theorem exec_rdEnd (s : State) : exec .rdEnd s = .next (s.returnData (colorWord s.endReg)) := rfl
@[simp] theorem exec_rdStep (s : State) : exec .rdStep s = .next (s.returnData (stepWord s.stepReg)) := rfl
@[simp] theorem exec_rdTotal (s : State) : exec .rdTotal s = .next (s.returnData (stepWord s.totalReg)) := rfl
@[simp] theorem exec_rdColor (s : State) : exec .rdColor s = .next (s.returnData (colorWord s.colorReg)) := rfl
@[simp] theorem exec_rdFrame0 (s : State) : exec .rdFrame0 s = .next (s.returnData (frameWord0 s.frame)) := rfl
@[simp] theorem exec_rdFrame1 (s : State) : exec .rdFrame1 s = .next (s.returnData (frameWord1 s.frame)) := rfl
@[simp] theorem exec_rdFrame2 (s : State) : exec .rdFrame2 s = .next (s.returnData (frameWord2 s.frame)) := rfl
@[simp] theorem exec_wrStatus (d : Word) (s : State) :
    exec (.wrStatus d) s = .next (s.clearErrors (clearMask d)) := rfl
@[simp] theorem exec_wrStart (d : Word) (s : State) : exec (.wrStart d) s = .next (s.writeStart (colorOperand d)) := rfl
@[simp] theorem exec_wrEnd (d : Word) (s : State) : exec (.wrEnd d) s = .next (s.writeEnd (colorOperand d)) := rfl
@[simp] theorem exec_wrStep (d : Word) (s : State) :
    exec (.wrStep d) s = .next (s.writeStep (stepOperand s.config.stepW d)) := rfl
@[simp] theorem exec_wrTotal (d : Word) (s : State) :
    exec (.wrTotal d) s = .next (s.writeTotal (stepOperand s.config.stepW d)) := rfl
@[simp] theorem exec_wrColor (d : Word) (s : State) : exec (.wrColor d) s = .next (s.writeColor (colorOperand d)) := rfl
@[simp] theorem exec_nop (s : State) : exec .nop s = .next s := rfl
@[simp] theorem exec_encode (s : State) : exec .encode s = .next s.encodeAndEmit := rfl

/-- LERP, by the outcome of its operand checks (rule R165). -/
theorem exec_lerp (s : State) :
    exec .lerp s = .next ((lerpCheck s.stepReg s.totalReg).elim (s.writeColor s.interpolated) s.recordError) := by
  unfold exec execLerp
  cases lerpCheck s.stepReg s.totalReg <;> rfl

/-- LERP_ENC, by the outcome of its operand checks (rule R166). -/
theorem exec_lerpEnc (s : State) :
    exec .lerpEnc s =
      .next ((lerpCheck s.stepReg s.totalReg).elim (s.writeColor s.interpolated).encodeAndEmit s.recordError) := by
  unfold exec execLerpEnc
  cases lerpCheck s.stepReg s.totalReg <;> rfl

/-! ### The operand checks of a LERP (rule R162) -/

theorem lerpCheck_none_iff (s T : StepVal) : lerpCheck s T = none ↔ T.toNat ≠ 0 ∧ s.toNat ≤ T.toNat := by
  unfold lerpCheck
  split
  · simp [*]
  · split <;> simp <;> omega

theorem lerpCheck_totalZero_iff (s T : StepVal) : lerpCheck s T = some .totalZero ↔ T.toNat = 0 := by
  unfold lerpCheck
  split
  · simp [*]
  · split <;> simp <;> omega

theorem lerpCheck_stepRange_iff (s T : StepVal) :
    lerpCheck s T = some .stepRange ↔ T.toNat ≠ 0 ∧ T.toNat < s.toNat := by
  unfold lerpCheck
  split
  · simp [*]
  · split <;> simp <;> omega

/-- A LERP raises no other cause than 1 and 2. -/
theorem lerpCheck_some {s T : StepVal} {c : ErrorCause} (h : lerpCheck s T = some c) :
    c = .totalZero ∨ c = .stepRange := by
  unfold lerpCheck at h
  split at h
  · exact .inl (Option.some.inj h).symm
  · split at h
    · exact .inr (Option.some.inj h).symm
    · cases h

/-! ### The flag computations (rules R103, R205) -/

/-- A cause's flag is the bit `c - 1` of rule R205. -/
theorem causeFlag_eq_shift (c : ErrorCause) : causeFlag c = (0b0001 : Nibble) <<< ((causeCode c).toNat - 1) := by
  cases c <;> rfl

/-- After an error at least one flag is set. -/
theorem errfAfterError_ne_zero (c : ErrorCause) (e : Nibble) : errfAfterError c e ≠ 0b0000 := by
  cases c <;> revert e <;> decide

/-- An error sets its own flag. -/
theorem errfAfterError_own (c : ErrorCause) (e : Nibble) : errfAfterError c e &&& causeFlag c ≠ 0 := by
  cases c <;> revert e <;> decide

/-- An error leaves every other cause's flag as it was. -/
theorem errfAfterError_other {c c' : ErrorCause} (h : c ≠ c') (e : Nibble) :
    errfAfterError c e &&& causeFlag c' = e &&& causeFlag c' := by
  cases c <;> cases c' <;> first | exact absurd rfl h | (revert e; decide)

/-- A cause's code is 1..4, never 0. -/
theorem causeCode_bounds (c : ErrorCause) : causeCode c ≠ 0 ∧ (causeCode c).toNat ≤ 4 := by
  cases c <;> decide

/-- A clear never sets a flag. -/
theorem errfAfterClear_sets_nothing (m e f : Nibble) (h : e &&& f = 0) : errfAfterClear m e &&& f = 0 := by
  revert m e f
  decide

/-- A flag that a clear takes away was in the mask. -/
theorem errfAfterClear_needs_mask (m e : Nibble) (c : ErrorCause) (h : e &&& causeFlag c ≠ 0)
    (h' : errfAfterClear m e &&& causeFlag c = 0) : m &&& causeFlag c ≠ 0 := by
  cases c <;> revert m e <;> decide

/-! ### Inversion -/

/-- Everything an operation can do, once. -/
theorem exec_cases {i : Instr} {s t : State} (h : exec i s = .next t) :
    (∃ r w, i = decodeRead r ∧ t = s.returnData w) ∨
    (∃ d, i = .wrStatus d ∧ t = s.clearErrors (clearMask d)) ∨
    (∃ d, i = .wrStart d ∧ t = s.writeStart (colorOperand d)) ∨
    (∃ d, i = .wrEnd d ∧ t = s.writeEnd (colorOperand d)) ∨
    (∃ d, i = .wrStep d ∧ t = s.writeStep (stepOperand s.config.stepW d)) ∨
    (∃ d, i = .wrTotal d ∧ t = s.writeTotal (stepOperand s.config.stepW d)) ∨
    (∃ d, i = .wrColor d ∧ t = s.writeColor (colorOperand d)) ∨
    (i = .nop ∧ t = s) ∨
    (i = .encode ∧ t = s.encodeAndEmit) ∨
    (∃ c, (i = .lerp ∨ i = .lerpEnc) ∧ lerpCheck s.stepReg s.totalReg = some c ∧ t = s.recordError c) ∨
    (i = .lerp ∧ lerpCheck s.stepReg s.totalReg = none ∧ t = s.writeColor s.interpolated) ∨
    (i = .lerpEnc ∧ lerpCheck s.stepReg s.totalReg = none ∧ t = (s.writeColor s.interpolated).encodeAndEmit) := by
  cases i with
  | rdCmd => exact .inl ⟨.cmd, _, rfl, (Host.Outcome.next.inj h).symm⟩
  | rdStatus => exact .inl ⟨.status, _, rfl, (Host.Outcome.next.inj h).symm⟩
  | rdStart => exact .inl ⟨.start, _, rfl, (Host.Outcome.next.inj h).symm⟩
  | rdEnd => exact .inl ⟨.endc, _, rfl, (Host.Outcome.next.inj h).symm⟩
  | rdStep => exact .inl ⟨.step, _, rfl, (Host.Outcome.next.inj h).symm⟩
  | rdTotal => exact .inl ⟨.total, _, rfl, (Host.Outcome.next.inj h).symm⟩
  | rdColor => exact .inl ⟨.color, _, rfl, (Host.Outcome.next.inj h).symm⟩
  | rdFrame0 => exact .inl ⟨.frame0, _, rfl, (Host.Outcome.next.inj h).symm⟩
  | rdFrame1 => exact .inl ⟨.frame1, _, rfl, (Host.Outcome.next.inj h).symm⟩
  | rdFrame2 => exact .inl ⟨.frame2, _, rfl, (Host.Outcome.next.inj h).symm⟩
  | wrStatus d => exact .inr (.inl ⟨d, rfl, (Host.Outcome.next.inj h).symm⟩)
  | wrStart d => exact .inr (.inr (.inl ⟨d, rfl, (Host.Outcome.next.inj h).symm⟩))
  | wrEnd d => exact .inr (.inr (.inr (.inl ⟨d, rfl, (Host.Outcome.next.inj h).symm⟩)))
  | wrStep d => exact .inr (.inr (.inr (.inr (.inl ⟨d, rfl, (Host.Outcome.next.inj h).symm⟩))))
  | wrTotal d => exact .inr (.inr (.inr (.inr (.inr (.inl ⟨d, rfl, (Host.Outcome.next.inj h).symm⟩)))))
  | wrColor d => exact .inr (.inr (.inr (.inr (.inr (.inr (.inl ⟨d, rfl, (Host.Outcome.next.inj h).symm⟩))))))
  | nop => simp_all
  | encode => simp_all
  | lerp =>
    rw [exec_lerp] at h
    cases hc : lerpCheck s.stepReg s.totalReg <;> simp_all
  | lerpEnc =>
    rw [exec_lerpEnc] at h
    cases hc : lerpCheck s.stepReg s.totalReg <;> simp_all

/-- Everything a step can do, once: idle, reset, a refused access, or an operation. -/
theorem step_cases {s t : State} (h : step s = .next t) :
    (s.pending = [] ∧ t = s.beginStep []) ∨
    (∃ co rest, s.pending = .reset co :: rest ∧ t = (s.beginStep rest).applyReset) ∨
    (∃ haw rest c, s.pending = .access haw :: rest ∧ decode haw = .error c ∧
      t = (s.beginStep rest).refuseAccess haw c) ∨
    (∃ haw rest i, s.pending = .access haw :: rest ∧ decode haw = .op i ∧ exec i (s.beginStep rest) = .next t) := by
  unfold step at h
  cases hp : s.pending with
  | nil => exact .inl ⟨rfl, by simpa [hp] using h.symm⟩
  | cons input rest =>
    rw [hp] at h
    cases input with
    | reset co => exact .inr (.inl ⟨co, rest, rfl, by simpa [perform] using h.symm⟩)
    | access haw =>
      cases hd : decode haw with
      | error c => exact .inr (.inr (.inl ⟨haw, rest, c, rfl, hd, by simpa [perform, access, hd] using h.symm⟩))
      | op i => exact .inr (.inr (.inr ⟨haw, rest, i, rfl, hd, by simpa [perform, access, hd] using h⟩))

/-- A refused access, by its direction (rule R100). -/
theorem refuseAccess_cases (s : State) (haw : Haw) (c : ErrorCause) :
    (haw.we = true ∧ s.refuseAccess haw c = s.recordError c) ∨
    (haw.we = false ∧ s.refuseAccess haw c = (s.recordError c).returnData 0) := by
  unfold State.refuseAccess
  cases haw.we <;> simp

end Sys2Proof.Machine
end

