-- ==== Sys2Proof/Laws/Interpolator.lean ====
section
/-! SUPPORT. The channel blend without its bit vectors: the numerator is at most `255*T`, so narrowing the quotient to 8 bits
changes nothing, and a packed color gives its channels back. -/

namespace Sys2Proof.Machine

/-- The numerator never exceeds `255*T` (42_interpolator.md rule R164). -/
theorem lerpNumerator_le (min max : Byte) (s T : Nat) (h : s ≤ T) : lerpNumerator min max s T ≤ 255 * T := by
  have h1 : min.toNat * (T - s) ≤ 255 * (T - s) := Nat.mul_le_mul_right _ (by omega)
  have h2 : max.toNat * s ≤ 255 * s := Nat.mul_le_mul_right _ (by omega)
  unfold lerpNumerator
  omega

/-- `lerp8` as a number is the quotient itself (rule R160). -/
theorem lerp8_toNat (min max : Byte) (s T : Nat) (h : s ≤ T) :
    (lerp8 min max s T).toNat = lerpNumerator min max s T / T := by
  have hle : lerpNumerator min max s T / T ≤ 255 :=
    Nat.div_le_of_le_mul (by rw [Nat.mul_comm]; exact lerpNumerator_le min max s T h)
  rw [lerp8, BitVec.toNat_ofNat]
  exact Nat.mod_eq_of_lt (by omega)

/-- One bit of a packed color (00_scope.md rule R9). -/
theorem pack_getLsbD (c : Color) (i : Nat) :
    (pack c).getLsbD i =
      if i < 8 then c.b.getLsbD i else if i - 8 < 8 then c.g.getLsbD (i - 8) else c.r.getLsbD (i - 8 - 8) := by
  simp only [pack, BitVec.getLsbD_append]

/-- The channels of a packed color are its own. -/
@[simp] theorem unpack_pack (c : Color) : unpack (pack c) = c := by
  have hr : (pack c).extractLsb' 16 8 = c.r := by
    apply BitVec.eq_of_getLsbD_eq
    intro i hi
    rw [BitVec.getLsbD_extractLsb', pack_getLsbD, if_neg (by omega), if_neg (by omega),
      show 16 + i - 8 - 8 = i by omega]
    simp [hi]
  have hg : (pack c).extractLsb' 8 8 = c.g := by
    apply BitVec.eq_of_getLsbD_eq
    intro i hi
    rw [BitVec.getLsbD_extractLsb', pack_getLsbD, if_neg (by omega), show 8 + i - 8 = i by omega, if_pos hi]
    simp [hi]
  have hb : (pack c).extractLsb' 0 8 = c.b := by
    apply BitVec.eq_of_getLsbD_eq
    intro i hi
    rw [BitVec.getLsbD_extractLsb', pack_getLsbD, show 0 + i = i by omega, if_pos hi]
    simp [hi]
  rw [unpack, hr, hg, hb]

/-- A register value is its channels packed. -/
@[simp] theorem pack_unpack (v : Rgb) : pack (unpack v) = v := by
  apply BitVec.eq_of_getLsbD_eq
  intro i hi
  rw [pack_getLsbD]
  simp only [unpack, BitVec.getLsbD_extractLsb']
  split
  · simp [*]
  · split
    · simp [*, show 8 + (i - 8) = i by omega]
    · simp [show i - 8 - 8 < 8 by omega, show 16 + (i - 8 - 8) = i by omega]

end Sys2Proof.Machine
end

