-- ==== Sys2Proof/Laws/PerInstr.lean ====
section
/-! SUPPORT. The statements made per operation. Family `TableRow`: the encoding of an operation lies in its row of the
opcode table (30_encoding.md rule R76), is a 32-bit aligned access (rule R72), and holds the operand it carries. -/

namespace Sys2Proof.Laws.TableRow

/-- What every operation's encoding satisfies. -/
def Statement (i : Instr) : Prop :=
  i.wf = true ∧ (encode i).sz = 0b10#2 ∧ (encode i).off.extractLsb' 0 2 = 0b00#2 ∧
    (∀ d, i.carries = some d → (encode i).data = d ∧ (encode i).we = true) ∧
    encode i &&& i.tableRow.2 = i.tableRow.1

/-- The rows whose mask leaves DATA free: the word's upper 11 bits decide. -/
theorem row_of_mkHaw (we : Bool) (r : Reg) (d : Word) :
    mkHaw 0b10 we r.offset d &&& 0x7FF00000000 = mkHaw 0b10 we r.offset 0 := by
  apply BitVec.eq_of_getLsbD_eq
  intro i hi
  have hm : ∀ i : Fin 43, (0x7FF00000000 : Haw).getLsbD i = decide (32 ≤ i.val) := by decide
  have := hm ⟨i, hi⟩
  simp only [BitVec.getLsbD_and, this, mkHaw_getLsbD]
  by_cases h : i < 32
  · simp [h, Nat.not_le.mpr h]
  · simp [h, Nat.le_of_not_lt h]

/-- An operation without an operand meets the statement by evaluation. -/
theorem fixed_statement (i : Instr)
    (h : i.wf = true ∧ (encode i).sz = 0b10#2 ∧ (encode i).off.extractLsb' 0 2 = 0b00#2 ∧
      encode i &&& i.tableRow.2 = i.tableRow.1) (hc : i.carries = none) : Statement i :=
  ⟨h.1, h.2.1, h.2.2.1, fun d hd => by simp [hc] at hd, h.2.2.2⟩

theorem rdCmd : Statement .rdCmd := fixed_statement _ (by decide) rfl
theorem rdStatus : Statement .rdStatus := fixed_statement _ (by decide) rfl
theorem rdStart : Statement .rdStart := fixed_statement _ (by decide) rfl
theorem rdEnd : Statement .rdEnd := fixed_statement _ (by decide) rfl
theorem rdStep : Statement .rdStep := fixed_statement _ (by decide) rfl
theorem rdTotal : Statement .rdTotal := fixed_statement _ (by decide) rfl
theorem rdColor : Statement .rdColor := fixed_statement _ (by decide) rfl
theorem rdFrame0 : Statement .rdFrame0 := fixed_statement _ (by decide) rfl
theorem rdFrame1 : Statement .rdFrame1 := fixed_statement _ (by decide) rfl
theorem rdFrame2 : Statement .rdFrame2 := fixed_statement _ (by decide) rfl

/-- A register write meets the statement when its row's match is the write of 0 there. -/
theorem write_statement (i : Instr) (r : Reg) (d : Word) (hw : i.wf = true) (he : encode i = mkHaw 0b10 true r.offset d)
    (hc : i.carries = some d) (hm : i.tableRow = (mkHaw 0b10 true r.offset 0, 0x7FF00000000)) : Statement i := by
  refine ⟨hw, by simp [he], by simp [he], fun d' h => ?_, by rw [he, hm, row_of_mkHaw]⟩
  rw [hc] at h
  cases h
  simp [he]

theorem wrStatus (data : Word) : Statement (.wrStatus data) :=
  write_statement _ .status data rfl rfl rfl rfl
theorem wrStart (data : Word) : Statement (.wrStart data) :=
  write_statement _ .start data rfl rfl rfl rfl
theorem wrEnd (data : Word) : Statement (.wrEnd data) :=
  write_statement _ .endc data rfl rfl rfl rfl
theorem wrStep (data : Word) : Statement (.wrStep data) :=
  write_statement _ .step data rfl rfl rfl rfl
theorem wrTotal (data : Word) : Statement (.wrTotal data) :=
  write_statement _ .total data rfl rfl rfl rfl
theorem wrColor (data : Word) : Statement (.wrColor data) :=
  write_statement _ .color data rfl rfl rfl rfl

theorem nop : Statement .nop := fixed_statement _ (by decide) rfl
theorem lerp : Statement .lerp := fixed_statement _ (by decide) rfl
theorem encode : Statement .encode := fixed_statement _ (by decide) rfl
theorem lerpEnc : Statement .lerpEnc := fixed_statement _ (by decide) rfl

end Sys2Proof.Laws.TableRow
end

