-- ==== Sys2Proof/Tests/Slice0.lean ====
section
/-! SUPPORT. Tests. Expected values come from the spec's tables (30_encoding.md rules R76 and R82, 95_test_vectors.md) and its
rules' examples; each theorem names its source. Then one witness for each statement that has hypotheses. -/

namespace Sys2Proof.Tests

open Sys2Proof.Machine

/-- The next state of an outcome, if it is one. -/
def nextOf : Result → Option State
  | .next t => some t
  | .fault _ => none
  | .refused _ => none

/-- The reset state with one access in front. -/
def resetWith (haw : Haw) : State := { State.reset with pending := [.access haw] }

/-- The pair and step of rule R165's example: #FF00FF to #00FF00, step 1 of 50. -/
def fading : State :=
  { State.reset with startReg := 0xFF00FF, endReg := 0x00FF00, totalReg := 50, stepReg := 1 }

/-- `fading` with one access in front. -/
def fadingWith (haw : Haw) : State := { fading with pending := [.access haw] }

/-- A state with flags 1 and 4 set, the first by cause 1 (rule R103's example, STATUS 0x109). -/
def flagged : State := { State.reset with errf := 0b1001, firstCause := 1 }

/-! ### Well-formedness refuses what is ill formed -/

theorem test_wf_number_too_wide : AsmValue.wf (.num (2 ^ 32)) = false := by decide
theorem test_wf_number_widest : AsmValue.wf (.num (2 ^ 32 - 1)) = true := by decide
theorem test_wf_rgb_too_wide : AsmValue.wf (.rgb (2 ^ 24)) = false := by decide
theorem test_wf_write_to_frame0 : AsmLine.wf (.wr .frame0 (.num 0)) = false := by decide
theorem test_wf_write_to_frame1 : AsmLine.wf (.wr .frame1 (.num 0)) = false := by decide
theorem test_wf_write_to_frame2 : AsmLine.wf (.wr .frame2 (.num 0)) = false := by decide
theorem test_wf_write_value : AsmLine.wf (.wr .step (.num (2 ^ 32))) = false := by decide
theorem test_wf_setPair_first : AsmLine.wf (.setPair (.rgb (2 ^ 24)) (.rgb 0)) = false := by decide
theorem test_wf_setPair_second : AsmLine.wf (.setPair (.rgb 0) (.rgb (2 ^ 24))) = false := by decide
theorem test_wf_show : AsmLine.wf (.showColor (.rgb (2 ^ 24))) = false := by decide
theorem test_wf_stepTo : AsmLine.wf (.stepTo (.num (2 ^ 32))) = false := by decide
theorem test_config_zero_illegal : ¬ Config.Legal { stepW := 0 } := by decide
theorem test_config_wide_illegal : ¬ Config.Legal { stepW := 25 } := by decide
theorem test_config_hardware_legal : Config.thisHardware.Legal := by decide

/-! ### Decoding, every operation: the word is the table row's pattern, bit by bit (SZ, WE, OFF, then DATA) -/

theorem test_decode_rdCmd : decode (0b10#2 ++ 0b0#1 ++ 0b00000000#8 ++ 0x00000000#32) = .op .rdCmd := by decide
theorem test_decode_rdStatus : decode (0b10#2 ++ 0b0#1 ++ 0b00000100#8 ++ 0x00000000#32) = .op .rdStatus := by decide
theorem test_decode_rdStart : decode (0b10#2 ++ 0b0#1 ++ 0b00001000#8 ++ 0xDEADBEEF#32) = .op .rdStart := by decide
theorem test_decode_rdEnd : decode (0b10#2 ++ 0b0#1 ++ 0b00001100#8 ++ 0x00000000#32) = .op .rdEnd := by decide
theorem test_decode_rdStep : decode (0b10#2 ++ 0b0#1 ++ 0b00010000#8 ++ 0x00000000#32) = .op .rdStep := by decide
theorem test_decode_rdTotal : decode (0b10#2 ++ 0b0#1 ++ 0b00010100#8 ++ 0x00000000#32) = .op .rdTotal := by decide
theorem test_decode_rdColor : decode (0b10#2 ++ 0b0#1 ++ 0b00011000#8 ++ 0x00000000#32) = .op .rdColor := by decide
theorem test_decode_rdFrame0 : decode (0b10#2 ++ 0b0#1 ++ 0b00100000#8 ++ 0x00000000#32) = .op .rdFrame0 := by decide
theorem test_decode_rdFrame1 : decode (0b10#2 ++ 0b0#1 ++ 0b00100100#8 ++ 0x00000000#32) = .op .rdFrame1 := by decide
theorem test_decode_rdFrame2 : decode (0b10#2 ++ 0b0#1 ++ 0b00101000#8 ++ 0x00000000#32) = .op .rdFrame2 := by decide
theorem test_decode_wrStatus :
    decode (0b10#2 ++ 0b1#1 ++ 0b00000100#8 ++ 0x0000000F#32) = .op (.wrStatus 0xF) := by decide
theorem test_decode_wrStart :
    decode (0b10#2 ++ 0b1#1 ++ 0b00001000#8 ++ 0x00FF00FF#32) = .op (.wrStart 0x00FF00FF) := by decide
theorem test_decode_wrEnd :
    decode (0b10#2 ++ 0b1#1 ++ 0b00001100#8 ++ 0xAB00FF10#32) = .op (.wrEnd 0xAB00FF10) := by decide
theorem test_decode_wrStep :
    decode (0b10#2 ++ 0b1#1 ++ 0b00010000#8 ++ 0x12345678#32) = .op (.wrStep 0x12345678) := by decide
theorem test_decode_wrTotal :
    decode (0b10#2 ++ 0b1#1 ++ 0b00010100#8 ++ 0x00000032#32) = .op (.wrTotal 50) := by decide
theorem test_decode_wrColor :
    decode (0b10#2 ++ 0b1#1 ++ 0b00011000#8 ++ 0xDEADBEEF#32) = .op (.wrColor 0xDEADBEEF) := by decide
theorem test_decode_nop : decode (0b10#2 ++ 0b1#1 ++ 0b00000000#8 ++ 0x00000000#32) = .op .nop := by decide
theorem test_decode_lerp : decode (0b10#2 ++ 0b1#1 ++ 0b00000000#8 ++ 0x00000001#32) = .op .lerp := by decide
theorem test_decode_encode : decode (0b10#2 ++ 0b1#1 ++ 0b00000000#8 ++ 0x00000002#32) = .op .encode := by decide
theorem test_decode_lerpEnc : decode (0b10#2 ++ 0b1#1 ++ 0b00000000#8 ++ 0x00000003#32) = .op .lerpEnc := by decide

/-- 95_test_vectors.md V-D1, the refused rows. -/
theorem test_decode_refused :
    [0x00400000000, 0x308000000FF, 0x60000000000, 0x40600000000, 0x41C00000000, 0x42C00000000, 0x4FC00000000,
      0x52000000000, 0x52800000000, 0x54000000001, 0x30000000007].map decode =
      List.replicate 11 (.error .badAccess) := by decide

/-- 95_test_vectors.md V-D1, the reserved CMD words. -/
theorem test_decode_cmd_reserved :
    [0x50000000004, 0x50080000001].map decode = List.replicate 2 (.error .cmdReserved) := by decide

/-- Rule R82, through the assembler of rule R80. -/
theorem test_assemble_worked_encodings :
    [AsmLine.wr .start (.rgb 0xFF00FF), .wr .endc (.rgb 0x00FF00), .wr .total (.num 50), .wr .step (.num 1), .lerpEnc,
      .rd .frame1 none, .clrErr].flatMap assemble =
      [0x50800FF00FF, 0x50C0000FF00, 0x51400000032, 0x51000000001, 0x50000000003, 0x42400000000, 0x5040000000F] := by
  decide

/-- Rule R80: an assembler warns on `WR CMD, 4` and not on `WR CMD, 3`. -/
theorem test_assemble_warns :
    AsmLine.warns (.wr .cmd (.num 4)) = true ∧ AsmLine.warns (.wr .cmd (.num 3)) = false := by decide

/-- Program P1 of 95_test_vectors.md, lines 1 and 2: `SHOW #FF0000`, with a comment line that gives no access. -/
theorem test_assembleAll :
    assembleAll [.comment "red", .showColor (.rgb 0xFF0000)] =
      [.access 0x51800FF0000, .access 0x50000000002] := by decide

/-- A table word decodes as the word itself; a bit above bit 42 is no host access word. -/
theorem test_decodeTableWord :
    decodeTableWord 48 0x50000000002 = some .encode ∧ decodeTableWord 48 0x850000000002 = none ∧
      decodeTableWord 48 0x50000000004 = none := by decide

/-! ### Steps: one access each -/

/-- V-D2: reads after reset. -/
theorem test_reads_after_reset :
    [0x40000000000, 0x40400000000, 0x40800000000, 0x40C00000000, 0x41000000000, 0x41400000000, 0x41800000000,
      0x42000000000, 0x42400000000, 0x42800000000].map (fun h => (nextOf (step (resetWith h))).map (·.rdataLog)) =
      [0x00000000, 0x00000000, 0x00000000, 0x00000000, 0x00000000, 0x00000000, 0x00000000,
        0x00000000, 0x000000FF, 0xFFFFFFFF].map (fun w => some [w]) := by decide

/-- Rule R102's example value. -/
theorem test_rdStatus : (nextOf (step { flagged with pending := [.access 0x40400000000] })).map (·.hrdata) =
    some 0x00000109 := by decide

/-- V-D3: START ← 0xFFFFFFFF. -/
theorem test_wrStart : (nextOf (step (resetWith 0x508FFFFFFFF))).map (·.startReg) = some 0xFFFFFF := by decide

/-- V-D3: END ← 0xAB00FF10. -/
theorem test_wrEnd : (nextOf (step (resetWith 0x50CAB00FF10))).map (·.endReg) = some 0x00FF10 := by decide

/-- V-D3: STEP ← 0x12345678 at STEP_W = 16. -/
theorem test_wrStep : (nextOf (step (resetWith 0x51012345678))).map (·.stepReg) = some 0x5678 := by decide

/-- Rule R109 at the largest legal STEP_W, 24. -/
theorem test_wrStep_widest :
    (nextOf (step { resetWith 0x51012345678 with config := { stepW := 24 } })).map (·.stepReg) = some 0x345678 := by
  decide

/-- V-D3: TOTAL ← 0x00010032. -/
theorem test_wrTotal : (nextOf (step (resetWith 0x51400010032))).map (·.totalReg) = some 50 := by decide

/-- V-D3: COLOR ← 0xDEADBEEF. -/
theorem test_wrColor : (nextOf (step (resetWith 0x518DEADBEEF))).map (·.colorReg) = some 0xADBEEF := by decide

/-- Rule R103's example: STATUS 0x109, WR STATUS 0x1 leaves 0x108. -/
theorem test_wrStatus_partial :
    (nextOf (step { flagged with pending := [.access 0x50400000001] })).map (·.status) = some 0x108 := by decide

/-- V-D4, fifth row: ones only in bits [31:4] clear nothing. -/
theorem test_wrStatus_high_bits :
    (nextOf (step { State.reset with errf := 0b1111, firstCause := 3, pending := [.access 0x504FFFFFFF0] })).map
      (·.status) = some 0x30F := by decide

/-- Rule R165's example. -/
theorem test_lerp : (nextOf (step (fadingWith 0x50000000001))).map (·.colorReg) = some 0xF905F9 := by decide

/-- V-D6: 0x00FF80 to 0xFF0080, step 7 of 8: lanes up, down, constant. -/
theorem test_lerp_lanes :
    (nextOf (step { State.reset with startReg := 0x00FF80, endReg := 0xFF0080, stepReg := 7, totalReg := 8,
                                     pending := [.access 0x50000000001] })).map (·.colorReg) = some 0xDF1F80 := by
  decide

/-- V-D5: COLOR 0x123456; FRAME, and one frame emitted with a pulse. -/
theorem test_encode :
    (nextOf (step { State.reset with colorReg := 0x123456, pending := [.access 0x50000000002] })).map
      (fun t => (t.frame.toList, t.framesOut.length, t.frameStrobe)) =
      some ([0x00, 0x00, 0x00, 0x00, 0xFF, 0x56, 0x34, 0x12, 0xFF, 0xFF, 0xFF, 0xFF], 1, true) := by decide

/-- Rule R166's example: FRAME1 = 0xF905F9FF. -/
theorem test_lerpEnc :
    (nextOf (step (fadingWith 0x50000000003))).map (fun t => (t.colorReg, frameWord1 t.frame, t.framesOut.length)) =
      some (0xF905F9, 0xF905F9FF, 1) := by decide

/-- V-D7: LERP_ENC with T = 5, s = 6 records cause 2 and emits nothing. -/
theorem test_lerpEnc_step_range :
    (nextOf (step { State.reset with stepReg := 6, totalReg := 5, pending := [.access 0x50000000003] })).map
      (fun t => (t.status, t.colorReg, t.framesOut)) = some (0x202, 0x000000, []) := by decide

/-- Rule R167: NOP does not clear STATUS. -/
theorem test_nop : (nextOf (step { flagged with pending := [.access 0x50000000000] })).map (·.status) =
    some 0x109 := by decide

/-- V-D7: STATUS after each refused or failing access from reset with T = 0. -/
theorem test_error_status :
    [0x50000000001, 0x50000000007, 0x50000000101, 0x30000000007, 0x02400000000, 0x52012345678, 0x41C00000000,
      0x51C00000001, 0x43000000000, 0x51100000005].map (fun h => (nextOf (step (resetWith h))).map (·.status)) =
      [0x101, 0x304, 0x304, 0x408, 0x408, 0x408, 0x408, 0x408, 0x408, 0x408].map some := by decide

/-- Rule R52: a refused read returns 0; a refused write returns nothing. -/
theorem test_refused_read_returns_zero :
    (nextOf (step (resetWith 0x40500000000))).map (·.rdataLog) = some [0x00000000] ∧
      (nextOf (step (resetWith 0x52400000000))).map (·.rdataLog) = some [] := by decide

/-- Rule R247: what a run of one read shows, and that a state with a flag set is no state without an error. -/
theorem test_observe :
    (nextOf (step { flagged with pending := [.access 0x40400000000] })).map (fun t => (t.observe.rdata, t.observe.frames)) =
      some ([0x00000109], []) ∧ ¬ flagged.NoError ∧ State.reset.NoError := by decide

/-- V-D8: a reset over a written state, with a coinciding write of START. -/
theorem test_reset :
    (nextOf (step { fading with colorReg := 0x374859, errf := 0b0100, firstCause := 3,
                                pending := [.reset (some 0x50800FFFFFF)] })) = some State.reset := by decide

/-- Rule R30: the first set bit of the black frame's stream is bit 32, the header's most significant. -/
theorem test_streamBit : State.reset.streamBit 31 = false ∧ State.reset.streamBit 32 = true := by decide

/-- With no frame emitted, every emitted frame is well formed. -/
theorem no_frame_emitted : ∀ f ∈ ([] : List Frame), FrameWellFormed f := fun _ h => nomatch h

theorem reset_inv : State.reset.Inv :=
  ⟨by decide, by decide, no_frame_emitted, by decide, by decide, by decide, by decide⟩

theorem flagged_inv : flagged.Inv :=
  ⟨by decide, by decide, no_frame_emitted, by decide, by decide, by decide, by decide⟩

theorem fading_inv (haw : Haw) : (fadingWith haw).Inv :=
  ⟨(by decide : fading.config.Legal), (by decide : FrameWellFormed fading.frame), no_frame_emitted,
    (by decide : fading.FrameIsLastEmitted), (by decide : fading.CauseConsistent), (by decide : fading.StepFieldsFit),
    (by decide : fading.frameStrobe = true → fading.framesOut ≠ [])⟩

/-! ### Witnesses: for each statement with hypotheses, a state and operands that meet them -/

theorem witness_DecodeOfEncode : Instr.wf (.wrStart 0xFFFFFFFF) = true := by decide

theorem witness_DecodingFollowsTheOpcodeTable :
    Instr.RowMatches .rdStart 0x408DEADBEEF ∧ Instr.RowMatches (.wrEnd 1) 0x50C00000002 ∧
      Instr.RowMatches (.wrEnd 2) 0x50C00000002 ∧ ¬ Instr.RowMatches .nop 0x50000000004 ∧
      ∀ d, ¬ Instr.RowMatches (.wrStart d) 0x00000000000 := by
  refine ⟨by decide, by decide, by decide, by decide, fun d h => ?_⟩
  exact absurd h (by decide : ¬ ((0x00000000000 : Haw) &&& 0x7FF00000000 = 0x50800000000))

/-- No operation's row holds the doubleword read at offset 0 (V-D1), and none the CMD word 4. -/
theorem witness_DecodingFollowsTheOpcodeTable_no_row :
    (∀ i : Instr, ¬ i.RowMatches 0x60000000000) ∧ (∀ i : Instr, ¬ i.RowMatches 0x50000000004) := by
  constructor <;> intro i <;> cases i <;> simp only [Instr.RowMatches, Instr.tableRow] <;> decide

theorem witness_IllegalEncodings :
    decode 0x52C00000000 = .error .badAccess ∧ decode 0x50000000004 = .error .cmdReserved := by decide

theorem witness_TheWindow :
    (Config.base ≤ Config.base ∧ Config.base ≤ Config.base + 0xFF) ∧
    (Config.base ≤ Config.base + 0xFF ∧ Config.base + 0xFF ≤ Config.base + 0xFF) ∧
    Config.base + 0xFF < Config.base + 0x100 := by omega

theorem witness_AssembledLines :
    (AsmLine.wf (.wr .cmd (.num 3)) = true ∧ AsmLine.warns (.wr .cmd (.num 3)) = false) ∧
    (AsmLine.wf (.wr .cmd (.num 4)) = true ∧ AsmLine.warns (.wr .cmd (.num 4)) = true) := by decide

/-- R81's two accesses of `SHOW` with another context's write of COLOR between them (rule R241). -/
theorem witness_PseudoInstructions :
    ({ State.reset with pending := [.access (encode (.wrColor 0xFF0000)), .access (encode (.wrColor 0x0000FF)),
        .access (encode .encode)] } : State).pending =
      .access (encode (.wrColor 0xFF0000)) :: ([.access (encode (.wrColor 0x0000FF))] ++ .access (encode .encode) :: []) := rfl

theorem witness_AssemblyLines :
    (3 : Nat) < 4 ∧ (2 ^ 32 - 1 : Nat) < 2 ^ 32 ∧ (2 ^ 24 - 1 : Nat) < 2 ^ 24 := by decide

theorem witness_StepRuns :
    (resetWith 0x50000000003).pending = .access 0x50000000003 :: [] ∧ decode 0x50000000003 = .op .lerpEnc := by decide

theorem witness_StepRecords :
    (resetWith 0x40500000000).pending = .access 0x40500000000 :: [] ∧
      decode 0x40500000000 = .error .badAccess := by decide

theorem witness_ResetStep : ({ fading with pending := [HostInput.reset none] } : State).pending = [.reset none] := rfl

theorem witness_IdleStep : State.reset.pending = [] := rfl

theorem witness_steps_answer :
    step (resetWith 0x50400000000) = .next State.reset ∧ step State.reset = .next State.reset := ⟨rfl, rfl⟩

theorem witness_EachStep_read :
    ∃ t, step (resetWith 0x42800000000) = .next t ∧
      (resetWith 0x42800000000).pending = .access 0x42800000000 :: [] ∧ Haw.we 0x42800000000 = false :=
  ⟨_, rfl, rfl, by decide⟩

theorem witness_EachStep_write :
    ∃ t, step (resetWith 0x50000000002) = .next t ∧ Haw.we 0x50000000002 = true := ⟨_, rfl, by decide⟩

theorem witness_EveryStepKeepsTheInvariant :
    (fadingWith 0x50000000003).Inv ∧ ∃ t, step (fadingWith 0x50000000003) = .next t := ⟨fading_inv _, _, rfl⟩

theorem witness_EveryReachableState :
    ∃ t, Config.Legal { stepW := 24 } ∧
      core.run 1 { State.reset with config := { stepW := 24 }, pending := [.access 0x50000000002] } = .next t :=
  ⟨_, by decide, rfl⟩

theorem witness_FramesGoOut :
    (∃ t, step (fadingWith 0x50000000003) = .next t ∧ t.frameStrobe = true) ∧
      (∃ t, step (fadingWith 0x50000000001) = .next t ∧ t.frameStrobe = false) := ⟨⟨_, rfl, rfl⟩, ⟨_, rfl, rfl⟩⟩

theorem witness_RegistersChange :
    (∃ t, step (fadingWith 0x50800000000) = .next t ∧ t.startReg ≠ (fadingWith 0x50800000000).startReg) ∧
    (∃ t, step (fadingWith 0x50C00000000) = .next t ∧ t.endReg ≠ (fadingWith 0x50C00000000).endReg) ∧
    (∃ t, step (fadingWith 0x51000000000) = .next t ∧ t.stepReg ≠ (fadingWith 0x51000000000).stepReg) ∧
    (∃ t, step (fadingWith 0x51400000000) = .next t ∧ t.totalReg ≠ (fadingWith 0x51400000000).totalReg) ∧
    (∃ t, step (fadingWith 0x50000000001) = .next t ∧ t.colorReg ≠ (fadingWith 0x50000000001).colorReg) ∧
    (∃ t, step (fadingWith 0x51800000001) = .next t ∧ t.colorReg ≠ (fadingWith 0x51800000001).colorReg) :=
  ⟨⟨_, rfl, by decide⟩, ⟨_, rfl, by decide⟩, ⟨_, rfl, by decide⟩, ⟨_, rfl, by decide⟩, ⟨_, rfl, by decide⟩,
    ⟨_, rfl, by decide⟩⟩

theorem witness_RegistersChange_no_reset : ¬ (fadingWith 0x50800000000).NextReset :=
  fun ⟨_, _, h⟩ => by simp [fadingWith] at h

theorem witness_FlagsAreSticky :
    (∃ t, step (resetWith 0x50000000001) = .next t ∧ (resetWith 0x50000000001).errf &&& causeFlag .totalZero = 0 ∧
      t.errf &&& causeFlag .totalZero ≠ 0 ∧ t.firstCause ≠ (resetWith 0x50000000001).firstCause) ∧
    (∃ t, step { flagged with pending := [.access 0x50400000008] } = .next t ∧
      flagged.errf &&& causeFlag .badAccess ≠ 0 ∧ t.errf &&& causeFlag .badAccess = 0) :=
  ⟨⟨_, rfl, by decide⟩, ⟨_, rfl, by decide⟩⟩

theorem witness_ErrOutput :
    (∃ t, step (resetWith 0x41C00000000) = .next t ∧ (resetWith 0x41C00000000).errO = false ∧
      (resetWith 0x41C00000000).NextRaises .badAccess) ∧
    (∃ t, step { flagged with pending := [.access 0x5040000000F] } = .next t ∧ flagged.errO = true) :=
  ⟨⟨_, rfl, by decide, ⟨_, _, rfl, by decide⟩⟩, ⟨_, rfl, by decide⟩⟩

theorem witness_OnlyTheFirstCause :
    (∃ t, access 0x30000000001 State.reset = .next t) ∧ ∀ d, decode 0x30000000001 ≠ .op (.wrStatus d) :=
  ⟨⟨_, rfl⟩, fun d => by rw [show decode 0x30000000001 = .error .badAccess by decide]; exact Decoded.noConfusion⟩

/-- The second state of the next witness: reset's record, another log and read data. -/
def readBefore : State := { State.reset with hrdata := 7, rdataLog := [7] }

theorem witness_AnAccessDependsOnly :
    State.reset.SameRecord readBefore ∧ State.reset.config = readBefore.config ∧
      (∃ t, access 0x42400000000 (State.reset.beginStep State.reset.pending) = .next t) ∧
      (∃ t, access 0x42400000000 (readBefore.beginStep readBefore.pending) = .next t) :=
  ⟨by decide, by decide, ⟨_, rfl⟩, ⟨_, rfl⟩⟩

theorem witness_FrameWords :
    State.reset.Inv ∧ (∃ t, exec .rdFrame0 State.reset = .next t) ∧ (∃ t, exec .rdFrame1 State.reset = .next t) ∧
      (∃ t, exec .rdFrame2 State.reset = .next t) := ⟨reset_inv, ⟨_, rfl⟩, ⟨_, rfl⟩, ⟨_, rfl⟩⟩

theorem witness_WhatIsWrittenIsReadBack :
    State.reset.config.Legal ∧
    ({ State.reset with pending := [.access (encode (.wrColor 0xDEADBEEF)), .access (encode .rdColor)] } : State).pending =
      .access (encode (.wrColor 0xDEADBEEF)) :: .access (encode .rdColor) :: [] ∧
    ({ State.reset with pending := [.access (encode (.wrStep 0x10000)), .access (encode .rdStep)] } : State).pending =
      .access (encode (.wrStep 0x10000)) :: .access (encode .rdStep) :: [] := ⟨by decide, rfl, rfl⟩

theorem witness_WritesOfStepAndTotal : Config.Legal { stepW := 1 } ∧ Config.Legal { stepW := 24 } := by decide

theorem witness_StatusClear :
    flagged.Inv ∧ (0xFFFFFFFF#32).extractLsb' 0 4 = 0xF#4 ∧ (0xFFFFFFF0#32).extractLsb' 0 4 = 0x0#4 :=
  ⟨flagged_inv, by decide, by decide⟩

theorem witness_Idempotent :
    Instr.lerp ≠ .encode ∧ Instr.lerp ≠ .lerpEnc ∧
      (∃ t, exec .lerp fading = .next t ∧ ∃ u, exec .lerp t = .next u) := ⟨by decide, by decide, _, rfl, _, rfl⟩

theorem witness_Lerp :
    (fading.totalReg.toNat ≠ 0 ∧ fading.stepReg.toNat ≤ fading.totalReg.toNat) ∧
    State.reset.totalReg.toNat = 0 ∧
    (({ fading with stepReg := 51 } : State).totalReg.toNat ≠ 0 ∧
      ({ fading with stepReg := 51 } : State).totalReg.toNat < ({ fading with stepReg := 51 } : State).stepReg.toNat) := by
  decide

theorem witness_LerpEndpoints :
    fading.totalReg.toNat ≠ 0 ∧ fading.stepReg.toNat ≤ fading.totalReg.toNat ∧
    ({ fading with stepReg := 0 } : State).stepReg.toNat = 0 ∧
    ({ fading with stepReg := 50 } : State).stepReg = ({ fading with stepReg := 50 } : State).totalReg ∧
    ({ fading with endReg := 0xFF00FF } : State).startReg = ({ fading with endReg := 0xFF00FF } : State).endReg := by
  decide

theorem witness_LerpEnc : fading.LerpOperandsLegal ∧ ({ fading with stepReg := 50 } : State).LerpOperandsLegal := by
  decide

theorem witness_OnlyEncodes :
    Instr.wrColor 0 ≠ .encode ∧ Instr.wrColor 0 ≠ .lerpEnc ∧ ∃ t, exec (.wrColor 0) fading = .next t :=
  ⟨by decide, by decide, _, rfl⟩

theorem witness_FrameEncoding : FrameWellFormed State.reset.frame ∧ encodeFrame (unpack 0) = encodeFrame (unpack 0) := by
  decide

theorem witness_FrameOut : (0 : Nat) < 96 ∧ 95 < 96 := by decide

theorem witness_ChannelBlend : (1 : Nat) ≤ 1 ∧ (1 : Nat) ≤ 1 := by decide

theorem witness_ChannelBlendMonotone :
    (1 : Nat) ≤ 50 ∧ (24 : Nat) ≤ 25 ∧ (25 : Nat) ≤ 50 ∧ (0 : Byte).toNat ≤ (255 : Byte).toNat := by decide

theorem witness_BlendNumerator : (65535 : Nat) < 2 ^ 16 ∧ (65535 : Nat) ≤ 65535 := by decide

theorem witness_SoftwareEnvelope :
    LerpSrc 7 9 0 50 7 ∧ LerpSrc 0 255 50 50 254 ∧ LerpSrc 0 255 50 50 255 ∧ LerpSrc 0 255 25 50 127 := by decide

end Sys2Proof.Tests
end

section
/-! SUPPORT. What one host access can do: the words the decoder refuses (30_encoding.md rule R77), and that every access
answers a next state and leaves the pending inputs alone. -/

namespace Sys2Proof

/-- The aligned offsets with no register are 0x1C and those from 0x2C on (10_state.md rule R21). -/
theorem regAt_eq_none_iff {off : Byte} (h : off.extractLsb' 0 2 = 0b00#2) :
    regAt off = none ↔ off = 0x1C#8 ∨ 0x2C ≤ off.toNat := by
  revert off
  decide

/-- No register is at 0x1C or from 0x2C on. -/
theorem offset_not_reserved (r : Reg) : r.offset ≠ 0x1C#8 ∧ ¬ 0x2C ≤ r.offset.toNat := by
  cases r <;> decide

/-- The writes the decoder refuses: a CMD word with a reserved bit set, and a write to FRAME. -/
theorem decodeWrite_eq_error_iff (d : Word) (r : Reg) (c : ErrorCause) :
    decodeWrite d r = .error c ↔
      (r = .cmd ∧ d.extractLsb' 2 30 ≠ 0#30 ∧ c = .cmdReserved) ∨
      ((r = .frame0 ∨ r = .frame1 ∨ r = .frame2) ∧ c = .badAccess) := by
  cases r with
  | cmd =>
    change decodeCmd d = .error c ↔ _
    obtain ⟨rfl, h⟩ | ⟨rfl, h⟩ | ⟨rfl, h⟩ | ⟨rfl, h⟩ | ⟨-, hne, h⟩ := decodeCmd_cases d <;> rw [h]
    · simp
    · simp
    · simp
    · simp
    · simp [hne, eq_comm]
  | frame0 | frame1 | frame2 => simp [decodeWrite, eq_comm]
  | status | start | endc | step | total | color => simp [decodeWrite]

/-- Rule R77's list of the words that are `BAD_ACCESS`. -/
theorem decode_eq_badAccess_iff (haw : Haw) :
    decode haw = .error .badAccess ↔
      haw.sz ≠ 0b10#2 ∨ haw.off.extractLsb' 0 2 ≠ 0b00#2 ∨ haw.off = 0x1C#8 ∨ 0x2C ≤ haw.off.toNat ∨
        (haw.we = true ∧ (haw.off = 0x20#8 ∨ haw.off = 0x24#8 ∨ haw.off = 0x28#8)) := by
  obtain ⟨hbad, hd⟩ | ⟨-, hal, hnone, hd⟩ | ⟨r, hsz, hoff, hwe, hd⟩ | ⟨r, hsz, hoff, hwe, hd⟩ := decode_cases haw
  · exact iff_of_true hd (by tauto)
  · have := (regAt_eq_none_iff hal).mp hnone
    exact iff_of_true hd (by tauto)
  · have := offset_not_reserved r
    simp [hd, hsz, hoff, hwe, this]
  · have := offset_not_reserved r
    have hframe : (r = .frame0 ∨ r = .frame1 ∨ r = .frame2) ↔
        (r.offset = 0x20#8 ∨ r.offset = 0x24#8 ∨ r.offset = 0x28#8) := by cases r <;> decide
    simp [hd, hsz, hoff, hwe, this, decodeWrite_eq_error_iff, hframe]

/-- The words that are `CMD_RESERVED`: a 32-bit write of CMD with a reserved bit set (rules R74, R77). -/
theorem decode_eq_cmdReserved_iff (haw : Haw) :
    decode haw = .error .cmdReserved ↔
      haw.sz = 0b10#2 ∧ haw.we = true ∧ haw.off = 0x00#8 ∧ haw.data.extractLsb' 2 30 ≠ 0#30 := by
  obtain ⟨hbad, hd⟩ | ⟨-, -, hnone, hd⟩ | ⟨r, hsz, hoff, hwe, hd⟩ | ⟨r, hsz, hoff, hwe, hd⟩ := decode_cases haw
  · refine iff_of_false (by simp [hd]) fun ⟨hsz, _, hoff, _⟩ => hbad ⟨hsz, ?_⟩
    rw [hoff]
    decide
  · refine iff_of_false (by simp [hd]) fun ⟨_, _, hoff, _⟩ => ?_
    rw [hoff] at hnone
    cases hnone
  · simp [hd, hwe]
  · have hcmd : r.offset = 0x00#8 ↔ r = .cmd := by cases r <;> decide
    simp [hd, hsz, hoff, hwe, hcmd, decodeWrite_eq_error_iff]

/-- The decoder refuses a word with no other cause than 3 and 4 (rule R73). -/
theorem cause_of_decode_error {haw : Haw} {c : ErrorCause} (h : decode haw = .error c) :
    c = .cmdReserved ∨ c = .badAccess := by
  obtain ⟨-, hd⟩ | ⟨-, -, -, hd⟩ | ⟨r, -, -, -, hd⟩ | ⟨r, -, -, -, hd⟩ := decode_cases haw
  · exact .inr (Decoded.error.inj (h.symm.trans hd))
  · exact .inr (Decoded.error.inj (h.symm.trans hd))
  · cases h.symm.trans hd
  · exact ((decodeWrite_eq_error_iff _ _ _).mp (hd.symm.trans h)).imp (·.2.2) (·.2)

end Sys2Proof

namespace Sys2Proof.Machine

theorem access_of_decode_error {haw : Haw} {c : ErrorCause} (h : decode haw = .error c) (s : State) :
    access haw s = .next (s.refuseAccess haw c) := by
  simp [access, h]

theorem access_of_decode_op {haw : Haw} {i : Instr} (h : decode haw = .op i) (s : State) :
    access haw s = exec i s := by
  simp [access, h]

/-- A register read returns a word and does nothing else. -/
theorem exec_decodeRead (r : Reg) (s : State) : ∃ w, exec (decodeRead r) s = .next (s.returnData w) := by
  cases r <;> exact ⟨_, rfl⟩

/-- Every operation answers a next state. -/
theorem exec_answers (i : Instr) (s : State) : ∃ t, exec i s = .next t := by
  cases i with
  | lerp => exact ⟨_, exec_lerp s⟩
  | lerpEnc => exact ⟨_, exec_lerpEnc s⟩
  | _ => exact ⟨_, rfl⟩

/-- No operation touches the pending inputs. -/
theorem exec_pending {i : Instr} {s t : State} (h : exec i s = .next t) : t.pending = s.pending := by
  rcases exec_cases h with ⟨_, _, -, rfl⟩ | ⟨_, -, rfl⟩ | ⟨_, -, rfl⟩ | ⟨_, -, rfl⟩ | ⟨_, -, rfl⟩ | ⟨_, -, rfl⟩ |
    ⟨_, -, rfl⟩ | ⟨-, rfl⟩ | ⟨-, rfl⟩ | ⟨_, -, -, rfl⟩ | ⟨-, -, rfl⟩ | ⟨-, -, rfl⟩ <;> simp

@[simp] theorem State.refuseAccess_pending (s : State) (haw : Haw) (c : ErrorCause) :
    (s.refuseAccess haw c).pending = s.pending := by
  obtain ⟨-, h⟩ | ⟨-, h⟩ := refuseAccess_cases s haw c <;> simp [h]

/-- A host access answers a next state and leaves the pending inputs alone. -/
theorem access_answers (haw : Haw) (s : State) : ∃ t, access haw s = .next t ∧ t.pending = s.pending := by
  cases hd : decode haw with
  | error c => exact ⟨_, access_of_decode_error hd s, by simp⟩
  | op i =>
    obtain ⟨t, ht⟩ := exec_answers i s
    exact ⟨t, (access_of_decode_op hd s).trans ht, exec_pending ht⟩

/-- A step with an access in front takes that access alone (20_memory.md rule R58). -/
theorem step_takes_the_first_access {s : State} {haw : Haw} {rest : List HostInput}
    (h : s.pending = .access haw :: rest) : ∃ t, step s = .next t ∧ t.pending = rest := by
  obtain ⟨t, ht, hp⟩ := access_answers haw (s.beginStep rest)
  exact ⟨t, by simp [step, h, perform, ht], by simpa using hp⟩

end Sys2Proof.Machine
end

section
/-! SUPPORT. The opcode table's rows as conditions on the fields of a word (30_encoding.md rule R76). -/

namespace Sys2Proof

/-- The table's mask for a row that leaves DATA free. -/
def fieldMask : Haw := 0x7FF00000000

/-- The table's mask for a row that fixes the whole word. -/
def wordMask : Haw := 0x7FFFFFFFFFF

/-- Two words have the same four fields exactly when they are the same word. -/
theorem mkHaw_inj {sz sz' : BitVec 2} {we we' : Bool} {off off' : Byte} {d d' : Word} :
    mkHaw sz we off d = mkHaw sz' we' off' d' ↔ sz = sz' ∧ we = we' ∧ off = off' ∧ d = d' := by
  constructor
  · intro h
    exact ⟨by simpa using congrArg Haw.sz h, by simpa using congrArg Haw.we h, by simpa using congrArg Haw.off h,
      by simpa using congrArg Haw.data h⟩
  · rintro ⟨rfl, rfl, rfl, rfl⟩
    rfl

/-- A word whose other fields are known is built from them and its DATA. -/
theorem mkHaw_data_eq {haw : Haw} {sz : BitVec 2} {we : Bool} {off : Byte} (hsz : haw.sz = sz) (hwe : haw.we = we)
    (hoff : haw.off = off) : mkHaw sz we off haw.data = haw := by
  rw [← hsz, ← hwe, ← hoff, mkHaw_fields]

/-- The mask that leaves DATA free keeps the other fields and clears DATA. -/
theorem and_fieldMask (haw : Haw) : haw &&& fieldMask = mkHaw haw.sz haw.we haw.off 0 := by
  have hmask : ∀ i : Fin 43, fieldMask.getLsbD i = decide (32 ≤ i.val) := by decide
  apply BitVec.eq_of_getLsbD_eq
  intro i hi
  conv_lhs => rw [← mkHaw_fields haw]
  rw [BitVec.getLsbD_and, hmask ⟨i, hi⟩, mkHaw_getLsbD, mkHaw_getLsbD]
  by_cases h : i < 32
  · simp [h, Nat.not_le.mpr h]
  · simp [h, Nat.le_of_not_lt h]

theorem and_wordMask (haw : Haw) : haw &&& wordMask = haw := BitVec.and_allOnes

/-- A word lies in the row of a register's read or write that leaves DATA free exactly when its other fields say so. -/
theorem fieldRow_iff (haw : Haw) (we : Bool) (r : Reg) :
    haw &&& fieldMask = mkHaw 0b10#2 we r.offset 0 ↔ haw = mkHaw 0b10#2 we r.offset haw.data := by
  constructor
  · intro h
    rw [and_fieldMask, mkHaw_inj] at h
    obtain ⟨hsz, hwe, hoff, -⟩ := h
    exact (mkHaw_data_eq hsz hwe hoff).symm
  · intro h
    rw [h]
    exact Laws.TableRow.row_of_mkHaw we r haw.data

/-- The row of every operation, once: a read's, which leaves DATA free; a register write's, which leaves free the DATA
that the operation carries; or a command's, which is one word. -/
theorem row_cases (i : Instr) :
    (∃ r : Reg, i = decodeRead r ∧ i.tableRow = (mkHaw 0b10#2 false r.offset 0, fieldMask)) ∨
    (∃ (r : Reg) (write : Word → Instr) (d : Word), i = write d ∧ ∀ d, decodeWrite d r = .op (write d) ∧
      (write d).carries = some d ∧ (write d).tableRow = (mkHaw 0b10#2 true r.offset 0, fieldMask)) ∨
    (∃ d : Word, decodeCmd d = .op i ∧ i.tableRow = (mkHaw 0b10#2 true Reg.cmd.offset d, wordMask)) := by
  cases i with
  | rdCmd => exact .inl ⟨.cmd, rfl, rfl⟩
  | rdStatus => exact .inl ⟨.status, rfl, rfl⟩
  | rdStart => exact .inl ⟨.start, rfl, rfl⟩
  | rdEnd => exact .inl ⟨.endc, rfl, rfl⟩
  | rdStep => exact .inl ⟨.step, rfl, rfl⟩
  | rdTotal => exact .inl ⟨.total, rfl, rfl⟩
  | rdColor => exact .inl ⟨.color, rfl, rfl⟩
  | rdFrame0 => exact .inl ⟨.frame0, rfl, rfl⟩
  | rdFrame1 => exact .inl ⟨.frame1, rfl, rfl⟩
  | rdFrame2 => exact .inl ⟨.frame2, rfl, rfl⟩
  | wrStatus d => exact .inr (.inl ⟨.status, .wrStatus, d, rfl, fun _ => ⟨rfl, rfl, rfl⟩⟩)
  | wrStart d => exact .inr (.inl ⟨.start, .wrStart, d, rfl, fun _ => ⟨rfl, rfl, rfl⟩⟩)
  | wrEnd d => exact .inr (.inl ⟨.endc, .wrEnd, d, rfl, fun _ => ⟨rfl, rfl, rfl⟩⟩)
  | wrStep d => exact .inr (.inl ⟨.step, .wrStep, d, rfl, fun _ => ⟨rfl, rfl, rfl⟩⟩)
  | wrTotal d => exact .inr (.inl ⟨.total, .wrTotal, d, rfl, fun _ => ⟨rfl, rfl, rfl⟩⟩)
  | wrColor d => exact .inr (.inl ⟨.color, .wrColor, d, rfl, fun _ => ⟨rfl, rfl, rfl⟩⟩)
  | nop => exact .inr (.inr ⟨0, rfl, rfl⟩)
  | lerp => exact .inr (.inr ⟨1, rfl, rfl⟩)
  | encode => exact .inr (.inr ⟨2, rfl, rfl⟩)
  | lerpEnc => exact .inr (.inr ⟨3, rfl, rfl⟩)

/-- A word in an operation's row decodes to an operation of that row, and to that operation itself unless it carries
another DATA word. -/
theorem decode_of_rowMatches {i : Instr} {haw : Haw} (h : i.RowMatches haw) :
    ∃ j, decode haw = .op j ∧ j.tableRow = i.tableRow ∧ (i.carries = none ∨ i.carries = some haw.data → j = i) := by
  unfold Instr.RowMatches at h
  obtain ⟨r, hi, hrow⟩ | ⟨r, write, d, rfl, hw⟩ | ⟨d, hdec, hrow⟩ := row_cases i
  · rw [hrow, fieldRow_iff] at h
    have hd : decode haw = .op i := by rw [h, hi, decode_mkHaw]; rfl
    exact ⟨i, hd, rfl, fun _ => rfl⟩
  · obtain ⟨-, hcar, hrow⟩ := hw d
    obtain ⟨hdec, -, hrow'⟩ := hw haw.data
    rw [hrow, fieldRow_iff] at h
    have hd : decode haw = .op (write haw.data) :=
      (congrArg decode h).trans ((decode_mkHaw true r haw.data).trans hdec)
    refine ⟨write haw.data, hd, hrow'.trans hrow.symm, fun hc => ?_⟩
    rw [hcar] at hc
    rw [Option.some.inj (hc.resolve_left (Option.some_ne_none d))]
  · rw [hrow, and_wordMask] at h
    have hd : decode haw = .op i := by rw [h]; exact (decode_mkHaw true .cmd d).trans hdec
    exact ⟨i, hd, rfl, fun _ => rfl⟩

/-- A read's word lies in its row, whatever its DATA. -/
theorem row_of_decodeRead (r : Reg) (d : Word) :
    (decodeRead r).RowMatches (mkHaw 0b10#2 false r.offset d) ∧ (decodeRead r).carries = none := by
  cases r <;> exact ⟨Laws.TableRow.row_of_mkHaw false _ d, rfl⟩

/-- A write's word lies in the row of what it decodes to, which carries the word's DATA or nothing. -/
theorem row_of_decodeWrite {d : Word} {r : Reg} {i : Instr} (h : decodeWrite d r = .op i) :
    i.RowMatches (mkHaw 0b10#2 true r.offset d) ∧ (i.carries = none ∨ i.carries = some d) := by
  cases r with
  | cmd =>
    change decodeCmd d = .op i at h
    obtain ⟨rfl, hd⟩ | ⟨rfl, hd⟩ | ⟨rfl, hd⟩ | ⟨rfl, hd⟩ | ⟨-, -, hd⟩ := decodeCmd_cases d <;>
      cases hd.symm.trans h <;> exact ⟨by decide, .inl rfl⟩
  | frame0 | frame1 | frame2 => cases h
  | status | start | endc | step | total | color =>
    cases h
    exact ⟨Laws.TableRow.row_of_mkHaw true _ d, .inr rfl⟩

/-- A word that decodes to an operation lies in that operation's row, and the operation carries the word's DATA or
nothing. -/
theorem row_of_decode {haw : Haw} {i : Instr} (h : decode haw = .op i) :
    i.RowMatches haw ∧ (i.carries = none ∨ i.carries = some haw.data) := by
  obtain ⟨-, hd⟩ | ⟨-, -, -, hd⟩ | ⟨r, hsz, hoff, hwe, hd⟩ | ⟨r, hsz, hoff, hwe, hd⟩ := decode_cases haw
  · cases hd.symm.trans h
  · cases hd.symm.trans h
  · cases hd.symm.trans h
    have hrow := row_of_decodeRead r haw.data
    rw [mkHaw_data_eq hsz hwe hoff] at hrow
    exact hrow.imp_right .inl
  · have hrow := row_of_decodeWrite (hd.symm.trans h)
    rwa [mkHaw_data_eq hsz hwe hoff] at hrow

end Sys2Proof
end

section
/-! SUPPORT. The proofs of the statements of 30_encoding.md. -/

open Sys2Proof Sys2Proof.Machine

/-- Settles O2: a row determines the operation up to its DATA, so a word in two rows would decode to two operations of
different rows; and a word in no row decodes to no operation. -/
theorem decodingFollowsTheOpcodeTable : Obligations.DecodingFollowsTheOpcodeTable := by
  refine ⟨fun haw i => ⟨row_of_decode, fun ⟨hrow, hcar⟩ => ?_⟩, fun haw i j hi hj => ?_, fun haw hno => ?_⟩
  · obtain ⟨j, hd, -, hj⟩ := decode_of_rowMatches hrow
    rw [hd, hj hcar]
  · obtain ⟨i', hdi, hrowi, -⟩ := decode_of_rowMatches hi
    obtain ⟨j', hdj, hrowj, -⟩ := decode_of_rowMatches hj
    cases hdi.symm.trans hdj
    exact hrowi.symm.trans hrowj
  · cases hd : decode haw with
    | op i => exact absurd (row_of_decode hd).1 (hno i)
    | error c =>
      obtain rfl | rfl := cause_of_decode_error hd
      · obtain ⟨hsz, hwe, hoff, -⟩ := (decode_eq_cmdReserved_iff haw).mp hd
        rw [if_pos ⟨hsz, hwe, hoff⟩]
      · have hbad := (decode_eq_badAccess_iff haw).mp hd
        rw [if_neg fun ⟨hsz, _, hoff⟩ => by simp [hsz, hoff] at hbad]

/-- Settles O3: rule R77's list is `decode_eq_badAccess_iff` and `decode_eq_cmdReserved_iff`, and a refused access records
its error. -/
theorem illegalEncodingsHaveTheirCauseAndOnlyRecordIt : Obligations.IllegalEncodingsHaveTheirCauseAndOnlyRecordIt := by
  refine ⟨fun haw => ⟨decode_eq_badAccess_iff haw, decode_eq_cmdReserved_iff haw, fun h => ?_, fun h => ?_⟩,
    fun haw c s h => access_of_decode_error h s⟩
  · simpa using cause_of_decode_error h
  · simpa using cause_of_decode_error h

/-- Settles O4: the decoder looks at the DATA of a write only, and every register has a read. -/
theorem readsIgnoreTheDataField : Obligations.ReadsIgnoreTheDataField := by
  constructor
  · intro sz off d d'
    have hdec : decode (mkHaw sz false off d) = decode (mkHaw sz false off d') := by simp [decode]
    exact ⟨hdec, fun s => by simp [access, hdec, State.refuseAccess]⟩
  · intro r d s
    have hdec : decode (mkHaw 0b10#2 false r.offset d) = .op (decodeRead r) := decode_mkHaw false r d
    obtain ⟨w, hw⟩ := exec_decodeRead r s
    exact ⟨decodeRead r, w, hdec, (access_of_decode_op hdec s).trans hw⟩

/-- Settles O7: the expansions hold by evaluation, and a step takes the first access alone. -/
theorem pseudoInstructionsExpand : Obligations.PseudoInstructionsExpand :=
  ⟨fun _ _ => ⟨rfl, rfl⟩, fun _ => ⟨rfl, rfl⟩, fun _ => ⟨rfl, rfl⟩, ⟨rfl, rfl⟩,
    fun _ _ _ _ _ h => step_takes_the_first_access h⟩

end

section
/-! SUPPORT. What a read's word and a write's operand are, field by field: the byte lanes of a frame word (10_state.md
rule R29), the fields of STATUS (40_host_access.md rule R102), the widened registers, and the DATA bits a write keeps
(30_encoding.md rule R75). -/

namespace Sys2Proof.Machine

/-- The byte lanes of a word built from four bytes: the last one is the lowest (rule R53). -/
theorem byteLanes_append (b₃ b₂ b₁ b₀ : Byte) :
    (b₃ ++ b₂ ++ b₁ ++ b₀).extractLsb' 0 8 = b₀ ∧ (b₃ ++ b₂ ++ b₁ ++ b₀).extractLsb' 8 8 = b₁ ∧
      (b₃ ++ b₂ ++ b₁ ++ b₀).extractLsb' 16 8 = b₂ ∧ (b₃ ++ b₂ ++ b₁ ++ b₀).extractLsb' 24 8 = b₃ := by
  refine ⟨BitVec.extractLsb'_append_eq_right, ?_, ?_, ?_⟩
  · rw [BitVec.extractLsb'_append_eq_of_le (by decide)]
    exact BitVec.extractLsb'_append_eq_right
  · rw [BitVec.extractLsb'_append_eq_of_le (by decide), BitVec.extractLsb'_append_eq_of_le (by decide)]
    exact BitVec.extractLsb'_append_eq_right
  · rw [BitVec.extractLsb'_append_eq_of_le (by decide), BitVec.extractLsb'_append_eq_of_le (by decide),
      BitVec.extractLsb'_append_eq_of_le (by decide)]
    exact BitVec.extractLsb'_eq_self

/-- Bits [11:8] of STATUS are FIRST_CAUSE. -/
theorem statusWord_firstCause (fc e : Nibble) : (statusWord fc e).extractLsb' 8 4 = fc := by
  rw [statusWord, BitVec.extractLsb'_setWidth_of_le (by decide), BitVec.extractLsb'_append_eq_of_le (by decide),
    BitVec.extractLsb'_append_eq_of_le (by decide)]
  exact BitVec.extractLsb'_eq_self

/-- Bits [3:0] of STATUS are the flags. -/
theorem statusWord_errf (fc e : Nibble) : (statusWord fc e).extractLsb' 0 4 = e := by
  rw [statusWord, BitVec.extractLsb'_setWidth_of_le (by decide)]
  exact BitVec.extractLsb'_append_eq_right

/-- The bits of STATUS outside its two fields are 0. -/
theorem statusWord_reserved (fc e : Nibble) :
    (statusWord fc e).extractLsb' 4 4 = 0#4 ∧ (statusWord fc e).extractLsb' 12 20 = 0#20 := by
  constructor
  · rw [statusWord, BitVec.extractLsb'_setWidth_of_le (by decide), BitVec.extractLsb'_append_eq_of_le (by decide)]
    exact BitVec.extractLsb'_append_eq_right
  · rw [statusWord, BitVec.setWidth_eq_append (by decide), BitVec.extractLsb'_cast]
    exact BitVec.extractLsb'_append_eq_left

@[simp] theorem colorWord_toNat (v : Rgb) : (colorWord v).toNat = v.toNat :=
  BitVec.toNat_setWidth_of_le (by decide)

@[simp] theorem stepWord_toNat (v : StepVal) : (stepWord v).toNat = v.toNat :=
  BitVec.toNat_setWidth_of_le (by decide)

/-- The channels that a color write takes from DATA (rules R9, R75). -/
theorem unpack_colorOperand (d : Word) :
    unpack (colorOperand d) = { r := d.extractLsb' 16 8, g := d.extractLsb' 8 8, b := d.extractLsb' 0 8 } := by
  rw [unpack, colorOperand, BitVec.extractLsb'_extractLsb'_of_le (by decide),
    BitVec.extractLsb'_extractLsb'_of_le (by decide), BitVec.extractLsb'_extractLsb'_of_le (by decide)]

/-- A write of STEP or TOTAL keeps `DATA[STEP_W-1:0]`: a legal `STEP_W` fits the storage, so widening loses no bit. -/
theorem stepOperand_toNat {w : Nat} (h : w ≤ stepWMax) (d : Word) : (stepOperand w d).toNat = d.toNat % 2 ^ w := by
  rw [stepOperand, BitVec.toNat_setWidth_of_le h, BitVec.toNat_setWidth]

end Sys2Proof.Machine
end

section
/-! SUPPORT. The proofs of the statements of 40_host_access.md. -/

open Sys2Proof Sys2Proof.Machine

/-- Settles O34: both writes store `stepOperand`, which is DATA modulo `2^STEP_W` under a legal `STEP_W`. -/
theorem writesOfStepAndTotalTruncateToStepW : Obligations.WritesOfStepAndTotalTruncateToStepW := by
  intro s d ⟨_, hmax⟩
  exact ⟨stepOperand s.config.stepW d, stepOperand_toNat hmax d, exec_wrStep d s, exec_wrTotal d s⟩

/-- Settles O26: the word returned is the constant 0. -/
theorem readOfCmdReturnsZero : Obligations.ReadOfCmdReturnsZero := exec_rdCmd

/-- Settles O27: the word returned is `statusWord`, whose fields cover all 32 bits. -/
theorem readOfStatusReturnsCauseAndFlags : Obligations.ReadOfStatusReturnsCauseAndFlags := by
  intro s
  exact ⟨s.status, exec_rdStatus s, statusWord_firstCause _ _, statusWord_errf _ _, statusWord_reserved _ _⟩

/-- Settles O28: each read returns its register widened by `colorWord`, which keeps the number. -/
theorem readsOfColorRegistersReturnThem : Obligations.ReadsOfColorRegistersReturnThem := by
  intro s
  exact ⟨⟨_, exec_rdStart s, colorWord_toNat _⟩, ⟨_, exec_rdEnd s, colorWord_toNat _⟩,
    ⟨_, exec_rdColor s, colorWord_toNat _⟩⟩

/-- Settles O29: each read returns its register widened by `stepWord`, which keeps the number. -/
theorem readsOfStepAndTotalReturnThem : Obligations.ReadsOfStepAndTotalReturnThem := by
  intro s
  exact ⟨⟨_, exec_rdStep s, stepWord_toNat _⟩, ⟨_, exec_rdTotal s, stepWord_toNat _⟩⟩

/-- Settles O30: each frame word is four frame bytes in a row, the lowest byte last. -/
theorem readsOfFrameWordsReturnItsBytes : Obligations.ReadsOfFrameWordsReturnItsBytes := by
  intro s
  exact ⟨⟨_, exec_rdFrame0 s, byteLanes_append _ _ _ _⟩, ⟨_, exec_rdFrame1 s, byteLanes_append _ _ _ _⟩,
    ⟨_, exec_rdFrame2 s, byteLanes_append _ _ _ _⟩⟩

/-- Settles O33: the three writes store the same `colorOperand`, whose channels come from DATA[23:0]. -/
theorem writesOfColorRegistersSetThem : Obligations.WritesOfColorRegistersSetThem := by
  intro s d
  exact ⟨colorOperand d, unpack_colorOperand d, exec_wrStart d s, exec_wrEnd d s, exec_wrColor d s⟩

/-- Settles O35: the write is `clearErrors` with the mask DATA[3:0]. -/
theorem writeOfStatusClearsTheFlagsWrittenAsOne : Obligations.WriteOfStatusClearsTheFlagsWrittenAsOne := by
  intro s d
  exact exec_wrStatus d s

end

section
/-! SUPPORT. The bytes of a frame (41_frame_encoder.md rules R141 to R143). -/

namespace Sys2Proof.Machine

/-- The header has all eight bits set, because `BRIGHTNESS` is the maximum of its field (rule R142). -/
theorem hdr_eq : hdr = 0xFF := by decide

/-- The twelve bytes of a color's frame, in the order in which they go out. -/
theorem encodeFrame_toList (c : Color) :
    (encodeFrame c).toList = [0x00, 0x00, 0x00, 0x00, 0xFF, c.b, c.g, c.r, 0xFF, 0xFF, 0xFF, 0xFF] := by
  rw [encodeFrame, hdr_eq, Vector.toList_mk]

end Sys2Proof.Machine
end

section
/-! SUPPORT. The proof of the statement about ENCODE in 41_frame_encoder.md. -/

open Sys2Proof Sys2Proof.Machine

/-- Settles O39: the frame is `encodeFrame` of COLOR's channels, and ENCODE is `encodeAndEmit`, which stores and emits it. -/
theorem encodeBuildsAndEmitsTheFrameOfColor : Obligations.EncodeBuildsAndEmitsTheFrameOfColor := by
  intro s
  exact ⟨encodeFrame (unpack s.colorReg), encodeFrame_toList _, exec_encode s⟩

end

section
/-! SUPPORT. What LERP and LERP_ENC do by the outcome of their operand checks, and the lanes of the color a LERP writes
(42_interpolator.md rules R160 to R166). -/

namespace Sys2Proof.Machine

/-- With legal operands LERP only writes COLOR (rule R165). -/
theorem exec_lerp_of_legal {s : State} (h : s.LerpOperandsLegal) :
    exec .lerp s = .next (s.writeColor s.interpolated) := by
  rw [exec_lerp, (lerpCheck_none_iff _ _).mpr h, Option.elim_none]

/-- With legal operands LERP_ENC is ENCODE in the state that LERP leads to (rule R166). -/
theorem exec_lerpEnc_of_legal {s : State} (h : s.LerpOperandsLegal) :
    exec .lerpEnc s = exec .encode (s.writeColor s.interpolated) := by
  rw [exec_lerpEnc, (lerpCheck_none_iff _ _).mpr h, Option.elim_none, exec_encode]

/-- A failed operand check ends LERP with the error record (rules R162, R165). -/
theorem exec_lerp_of_error {s : State} {c : ErrorCause} (h : lerpCheck s.stepReg s.totalReg = some c) :
    exec .lerp s = .next (s.recordError c) := by
  rw [exec_lerp, h, Option.elim_some]

/-- A failed operand check ends LERP_ENC as it ends LERP: nothing is encoded (rule R166). -/
theorem exec_lerpEnc_of_error {s : State} {c : ErrorCause} (h : lerpCheck s.stepReg s.totalReg = some c) :
    exec .lerpEnc s = .next (s.recordError c) := by
  rw [exec_lerpEnc, h, Option.elim_some]

/-- The channels of the color a LERP writes are the three blends (rule R163). -/
theorem unpack_interpolated (s : State) :
    unpack s.interpolated =
      lerpColor (unpack s.startReg) (unpack s.endReg) s.stepReg.toNat s.totalReg.toNat :=
  unpack_pack _

/-- Each 8-bit lane of the color a LERP writes is the exact blend of the same lanes of START and END (rules R160, R163). -/
theorem interpolated_lane {s : State} (h : s.stepReg.toNat ≤ s.totalReg.toNat) :
    ∀ k ∈ [0, 8, 16], (s.interpolated.extractLsb' k 8).toNat =
      ((s.startReg.extractLsb' k 8).toNat * (s.totalReg.toNat - s.stepReg.toNat) +
        (s.endReg.extractLsb' k 8).toNat * s.stepReg.toNat) / s.totalReg.toNat := by
  have hc := unpack_interpolated s
  have hb : s.interpolated.extractLsb' 0 8 = lerp8 _ _ _ _ := congrArg Color.b hc
  have hg : s.interpolated.extractLsb' 8 8 = lerp8 _ _ _ _ := congrArg Color.g hc
  have hr : s.interpolated.extractLsb' 16 8 = lerp8 _ _ _ _ := congrArg Color.r hc
  simp only [List.forall_mem_cons]
  refine ⟨?_, ?_, ?_, nofun⟩
  · rw [hb, lerp8_toNat _ _ _ _ h]; rfl
  · rw [hg, lerp8_toNat _ _ _ _ h]; rfl
  · rw [hr, lerp8_toNat _ _ _ _ h]; rfl

end Sys2Proof.Machine
end

section
/-! SUPPORT. The proofs of the statements about LERP, LERP_ENC and NOP in 42_interpolator.md. -/

open Sys2Proof Sys2Proof.Machine

/-- Settles O40: the cases of the statement are the outcomes of the operand checks, and each lane written is `lerp8`, whose
quotient fits a byte. -/
theorem lerpWritesTheExactBlendOrRecordsAnError : Obligations.LerpWritesTheExactBlendOrRecordsAnError := by
  intro s
  refine ⟨fun hT hle => ?_, fun hT => ?_, fun hT hlt => ?_⟩
  · exact ⟨s.interpolated, exec_lerp_of_legal ⟨hT, hle⟩, interpolated_lane hle⟩
  · exact exec_lerp_of_error ((lerpCheck_totalZero_iff _ _).mpr hT)
  · exact exec_lerp_of_error ((lerpCheck_stepRange_iff _ _).mpr ⟨hT, hlt⟩)

/-- Settles O42: with legal operands LERP_ENC is ENCODE after LERP's write of COLOR; otherwise it ends at the same check as
LERP. -/
theorem lerpEncIsLerpThenEncode : Obligations.LerpEncIsLerpThenEncode := by
  intro s
  refine ⟨fun hlegal => ?_, fun hT => ?_, fun hT hlt => ?_⟩
  · have henc := exec_lerpEnc_of_legal hlegal
    exact ⟨s.interpolated, encodeFrame (unpack s.interpolated), exec_lerp_of_legal hlegal, henc.symm,
      encodeFrame_toList _, interpolated_lane hlegal.2, henc.trans (exec_encode _)⟩
  · exact exec_lerpEnc_of_error ((lerpCheck_totalZero_iff _ _).mpr hT)
  · exact exec_lerpEnc_of_error ((lerpCheck_stepRange_iff _ _).mpr ⟨hT, hlt⟩)

/-- Settles O38: NOP answers the state it was given. -/
theorem nopChangesNothing : Obligations.NopChangesNothing := exec_nop

end

section
/-! SUPPORT. What a step does to the error flags and FIRST_CAUSE, by its input (60_exceptions.md rules R205, R206, R209),
and the conditions of rule R207 on an access word. -/

namespace Sys2Proof

/-- Rule R207's condition for `BAD_ACCESS`: among the words of the right shape at a register's offset, a write from 0x20 on
is a write to FRAME. -/
theorem decode_eq_badAccess_iff_readOnly_above (haw : Haw) :
    decode haw = .error .badAccess ↔
      haw.sz ≠ 0b10#2 ∨ haw.off.extractLsb' 0 2 ≠ 0b00#2 ∨ haw.off = 0x1C#8 ∨ 0x2C ≤ haw.off.toNat ∨
        (haw.we = true ∧ 0x20 ≤ haw.off.toNat) := by
  have hframe : ∀ off : Byte, off.extractLsb' 0 2 = 0b00#2 → ¬ 0x2C ≤ off.toNat →
      ((off = 0x20#8 ∨ off = 0x24#8 ∨ off = 0x28#8) ↔ 0x20 ≤ off.toNat) := by decide
  have := hframe haw.off
  rw [decode_eq_badAccess_iff]
  tauto

/-- No read is a LERP or LERP_ENC. -/
theorem decodeRead_ne_lerp (r : Reg) : decodeRead r ≠ .lerp ∧ decodeRead r ≠ .lerpEnc := by
  cases r <;> decide

/-- The operations whose operands are checked are LERP and LERP_ENC: the writes of CMD with DATA bit 0 set (rule R74). -/
theorem lerp_or_lerpEnc_iff_of_decode {haw : Haw} {i : Instr} (h : decode haw = .op i) :
    (i = .lerp ∨ i = .lerpEnc) ↔ haw.we = true ∧ haw.off = 0x00#8 ∧ haw.data.getLsbD 0 = true := by
  obtain ⟨-, hd⟩ | ⟨-, -, -, hd⟩ | ⟨r, -, -, hwe, hd⟩ | ⟨r, -, hoff, hwe, hd⟩ := decode_cases haw
  · cases hd.symm.trans h
  · cases hd.symm.trans h
  · cases hd.symm.trans h
    simp [hwe, decodeRead_ne_lerp]
  · have hi := hd.symm.trans h
    cases r with
    | cmd =>
      change decodeCmd haw.data = .op i at hi
      obtain ⟨hdata, hc⟩ | ⟨hdata, hc⟩ | ⟨hdata, hc⟩ | ⟨hdata, hc⟩ | ⟨-, -, hc⟩ := decodeCmd_cases haw.data <;>
        cases hc.symm.trans hi <;> simp [hwe, hoff, hdata, Reg.offset]
    | frame0 | frame1 | frame2 => cases hi
    | status | start | endc | step | total | color =>
      cases hi
      simp [hoff, Reg.offset]

end Sys2Proof

namespace Sys2Proof.Machine

/-- `err_o` is low exactly when no flag is set (rule R206). -/
theorem errO_eq_false_iff (s : State) : s.errO = false ↔ s.errf = 0b0000 := by
  simp [State.errO, errLevel]

theorem errO_eq_true_iff (s : State) : s.errO = true ↔ s.errf ≠ 0b0000 := by
  simp [State.errO, errLevel]

/-- The flags of `t` are those of `s` after the error `c` (rule R205). -/
def State.FlagsAfterError (s : State) (c : ErrorCause) (t : State) : Prop :=
  t.errf = errfAfterError c s.errf ∧ t.firstCause = firstCauseAfterError c s.errf s.firstCause

theorem refuseAccess_flags (s : State) (haw : Haw) (c : ErrorCause) : s.FlagsAfterError c (s.refuseAccess haw c) := by
  obtain ⟨-, h⟩ | ⟨-, h⟩ := refuseAccess_cases s haw c <;> rw [h] <;> exact ⟨rfl, rfl⟩

/-- What an operation does to the flags: WR_STATUS clears, a failed operand check records, everything else leaves them. -/
theorem exec_flags_cases {i : Instr} {s t : State} (h : exec i s = .next t) :
    (∃ d, i = .wrStatus d ∧ t.errf = errfAfterClear (clearMask d) s.errf) ∨
    (∃ c, (i = .lerp ∨ i = .lerpEnc) ∧ lerpCheck s.stepReg s.totalReg = some c ∧ s.FlagsAfterError c t) ∨
    ((i = .lerp ∨ i = .lerpEnc → lerpCheck s.stepReg s.totalReg = none) ∧
      t.errf = s.errf ∧ t.firstCause = s.firstCause) := by
  rcases exec_cases h with ⟨r, _, rfl, rfl⟩ | ⟨d, rfl, rfl⟩ | ⟨_, rfl, rfl⟩ | ⟨_, rfl, rfl⟩ | ⟨_, rfl, rfl⟩ |
    ⟨_, rfl, rfl⟩ | ⟨_, rfl, rfl⟩ | ⟨rfl, rfl⟩ | ⟨rfl, rfl⟩ | ⟨c, hi, hc, rfl⟩ | ⟨-, hc, rfl⟩ | ⟨-, hc, rfl⟩
  · exact .inr (.inr ⟨by simp [decodeRead_ne_lerp], rfl, rfl⟩)
  · exact .inl ⟨d, rfl, rfl⟩
  pick_goal 8
  · exact .inr (.inl ⟨c, hi, hc, rfl, rfl⟩)
  all_goals exact .inr (.inr ⟨by simp [*], rfl, rfl⟩)

theorem step_of_nextOp {s : State} {i : Instr} (h : s.NextOp i) : ∃ rest, step s = exec i (s.beginStep rest) := by
  obtain ⟨haw, rest, hp, hd⟩ := h
  exact ⟨rest, by simp [step, hp, perform, access_of_decode_op hd]⟩

theorem step_of_nextRefused {s : State} {c : ErrorCause} (h : s.NextRefused c) :
    ∃ haw rest, step s = .next ((s.beginStep rest).refuseAccess haw c) := by
  obtain ⟨haw, rest, hp, hd⟩ := h
  exact ⟨haw, rest, by simp [step, hp, perform, access_of_decode_error hd]⟩

theorem step_of_nextReset {s : State} (h : s.NextReset) : ∃ rest, step s = .next (s.beginStep rest).applyReset := by
  obtain ⟨co, rest, hp⟩ := h
  exact ⟨rest, by simp [step, hp, perform]⟩

/-- A LERP or LERP_ENC whose operand check fails records that error. -/
theorem step_flags_of_failed_check {s t : State} {c : ErrorCause} (hop : s.NextOp .lerp ∨ s.NextOp .lerpEnc)
    (hc : lerpCheck s.stepReg s.totalReg = some c) (h : step s = .next t) : s.FlagsAfterError c t := by
  have hexec : ∃ i rest, (i = .lerp ∨ i = .lerpEnc) ∧ exec i (s.beginStep rest) = .next t := by
    obtain hop | hop := hop <;> obtain ⟨rest, hs⟩ := step_of_nextOp hop
    · exact ⟨.lerp, rest, .inl rfl, hs.symm.trans h⟩
    · exact ⟨.lerpEnc, rest, .inr rfl, hs.symm.trans h⟩
  obtain ⟨i, rest, hi, hx⟩ := hexec
  obtain ⟨d, rfl, -⟩ | ⟨c', -, hc', hf⟩ | ⟨hnone, -⟩ := exec_flags_cases hx
  · simp at hi
  · cases hc.symm.trans hc'
    exact hf
  · cases hc.symm.trans (hnone hi)

/-- The input that raises a cause records it (rule R205). -/
theorem step_flags_of_nextRaises {s t : State} {c : ErrorCause} (hr : s.NextRaises c) (h : step s = .next t) :
    s.FlagsAfterError c t := by
  have hrefused : s.NextRefused c → s.FlagsAfterError c t := fun hr => by
    obtain ⟨haw, rest, hs⟩ := step_of_nextRefused hr
    cases hs.symm.trans h
    exact refuseAccess_flags (s.beginStep rest) haw c
  cases c with
  | totalZero => exact step_flags_of_failed_check hr.1 ((lerpCheck_totalZero_iff _ _).mpr hr.2) h
  | stepRange => exact step_flags_of_failed_check hr.1 ((lerpCheck_stepRange_iff _ _).mpr hr.2) h
  | cmdReserved => exact hrefused hr
  | badAccess => exact hrefused hr

/-- Reset leaves no flag set (rule R230). -/
theorem step_errf_of_nextReset {s t : State} (hr : s.NextReset) (h : step s = .next t) : t.errf = 0b0000 := by
  obtain ⟨rest, hs⟩ := step_of_nextReset hr
  cases hs.symm.trans h
  rfl

/-- WR_STATUS clears the flags of its mask (rule R209). -/
theorem step_errf_of_wrStatus {s t : State} {d : Word} (hop : s.NextOp (.wrStatus d)) (h : step s = .next t) :
    t.errf = errfAfterClear (clearMask d) s.errf := by
  obtain ⟨rest, hs⟩ := step_of_nextOp hop
  cases hs.symm.trans h
  rfl

/-- A refused word raises the cause that the decoder gave it. -/
theorem nextRaises_of_refused {s : State} {c : ErrorCause} (h : s.NextRefused c) : s.NextRaises c := by
  have ⟨_, _, _, hd⟩ := h
  obtain rfl | rfl := cause_of_decode_error hd <;> exact h

/-- A failed operand check raises its cause. -/
theorem nextRaises_of_failed_check {s : State} {c : ErrorCause} (hop : s.NextOp .lerp ∨ s.NextOp .lerpEnc)
    (hc : lerpCheck s.stepReg s.totalReg = some c) : s.NextRaises c := by
  obtain rfl | rfl := lerpCheck_some hc
  · exact ⟨hop, (lerpCheck_totalZero_iff _ _).mp hc⟩
  · exact ⟨hop, (lerpCheck_stepRange_iff _ _).mp hc⟩

/-- Only an error, a reset or WR_STATUS touches the flags and FIRST_CAUSE (10_state.md rule R32). -/
theorem step_flags_cases {s t : State} (h : step s = .next t) :
    (∃ c, s.NextRaises c) ∨ s.NextReset ∨ (∃ d, s.NextOp (.wrStatus d)) ∨
      (t.errf = s.errf ∧ t.firstCause = s.firstCause) := by
  obtain ⟨-, rfl⟩ | ⟨co, rest, hp, -⟩ | ⟨haw, rest, c, hp, hd, -⟩ | ⟨haw, rest, i, hp, hd, hx⟩ := step_cases h
  · exact .inr (.inr (.inr ⟨rfl, rfl⟩))
  · exact .inr (.inl ⟨co, rest, hp⟩)
  · exact .inl ⟨c, nextRaises_of_refused ⟨haw, rest, hp, hd⟩⟩
  · have hop : s.NextOp i := ⟨haw, rest, hp, hd⟩
    obtain ⟨d, rfl, -⟩ | ⟨c, hi, hc, -⟩ | ⟨-, hsame⟩ := exec_flags_cases hx
    · exact .inr (.inr (.inl ⟨d, hop⟩))
    · have hlerp : s.NextOp .lerp ∨ s.NextOp .lerpEnc := by
        obtain rfl | rfl := hi
        · exact .inl hop
        · exact .inr hop
      exact .inl ⟨c, nextRaises_of_failed_check hlerp hc⟩
    · exact .inr (.inr (.inr hsame))

end Sys2Proof.Machine
end

section
/-! SUPPORT. The proofs of the statements of 60_exceptions.md. -/

open Sys2Proof Sys2Proof.Machine

/-- Settles O22: the only steps that touch the flags are an error, which leaves one set, a reset, which leaves none, and
WR_STATUS, which sets none. -/
theorem errOutputRisesAndFallsWithTheFlags : Obligations.ErrOutputRisesAndFallsWithTheFlags := by
  intro s t h
  have hset : ∀ c, s.NextRaises c → t.errf ≠ 0b0000 := fun c hr => by
    rw [(step_flags_of_nextRaises hr h).1]
    exact errfAfterError_ne_zero c s.errf
  refine ⟨errO_eq_true_iff s, fun hs => ?_, fun c hs hr => ?_, fun hs => ?_⟩
  · rw [errO_eq_false_iff] at hs
    rw [errO_eq_true_iff]
    refine ⟨fun ht => ?_, fun ⟨c, hr⟩ => hset c hr⟩
    obtain hraise | hreset | ⟨d, hop⟩ | ⟨hsame, -⟩ := step_flags_cases h
    · exact hraise
    · exact absurd (step_errf_of_nextReset hreset h) ht
    · have hclear := step_errf_of_wrStatus hop h
      rw [hs] at hclear
      exact absurd (hclear.trans BitVec.zero_and) ht
    · exact absurd (hsame.trans hs) ht
  · rw [errO_eq_false_iff] at hs
    obtain ⟨herrf, hfirst⟩ := step_flags_of_nextRaises hr h
    rw [hs] at herrf hfirst
    exact ⟨hfirst, herrf.trans BitVec.zero_or⟩
  · rw [errO_eq_true_iff] at hs
    rw [errO_eq_false_iff]
    constructor
    · intro ht
      obtain ⟨c, hr⟩ | hreset | ⟨d, hop⟩ | ⟨hsame, -⟩ := step_flags_cases h
      · exact absurd ht (hset c hr)
      · exact .inl hreset
      · exact .inr ⟨d, hop, (step_errf_of_wrStatus hop h).symm.trans ht⟩
      · exact absurd (hsame.symm.trans ht) hs
    · rintro (hreset | ⟨d, hop, hclear⟩)
      · exact step_errf_of_nextReset hreset h
      · exact (step_errf_of_wrStatus hop h).trans hclear

/-- Settles O23: the first two conditions are the decoder's refusals, in its order; past them the word is an operation, and
the last two are the operand checks of a LERP, in their order. -/
theorem onlyTheFirstCauseIsRecorded : Obligations.OnlyTheFirstCauseIsRecorded := by
  intro haw s t h hnoClear
  cases hd : decode haw with
  | error c =>
    cases (access_of_decode_error hd s).symm.trans h
    rw [(refuseAccess_flags s haw c).1]
    obtain rfl | rfl := cause_of_decode_error hd
    · have hnotBad : decode haw ≠ .error .badAccess := by simp [hd]
      rw [if_neg (mt (decode_eq_badAccess_iff_readOnly_above haw).mpr hnotBad),
        if_pos ((decode_eq_cmdReserved_iff haw).mp hd).2]
      rfl
    · rw [if_pos ((decode_eq_badAccess_iff_readOnly_above haw).mp hd)]
      rfl
  | op i =>
    have hnotBad := mt (decode_eq_badAccess_iff_readOnly_above haw).mpr (by simp [hd])
    have hnotReserved := mt (decode_eq_cmdReserved_iff haw).mpr (by simp [hd])
    have hlerp := lerp_or_lerpEnc_iff_of_decode hd
    have hsz : haw.sz = 0b10#2 := not_not.mp fun hne => hnotBad (.inl hne)
    rw [if_neg hnotBad, if_neg fun hres => hnotReserved ⟨hsz, hres⟩]
    obtain ⟨d, rfl, -⟩ | ⟨c, hi, hc, hflags⟩ | ⟨hnone, hsame, -⟩ :=
      exec_flags_cases ((access_of_decode_op hd s).symm.trans h)
    · exact absurd hd (hnoClear d)
    · obtain ⟨hwe, hoff, hbit⟩ := hlerp.mp hi
      rw [hflags.1]
      obtain rfl | rfl := lerpCheck_some hc
      · rw [if_pos ⟨hwe, hoff, hbit, (lerpCheck_totalZero_iff _ _).mp hc⟩]
        rfl
      · obtain ⟨hT, hlt⟩ := (lerpCheck_stepRange_iff _ _).mp hc
        rw [if_neg fun ⟨_, _, _, hzero⟩ => hT hzero, if_pos ⟨hwe, hoff, hbit, hlt⟩]
        rfl
    · have hlegal : haw.we = true ∧ haw.off = 0x00#8 ∧ haw.data.getLsbD 0 = true → s.LerpOperandsLegal :=
        fun hw => (lerpCheck_none_iff _ _).mp (hnone (hlerp.mpr hw))
      rw [if_neg fun ⟨hwe, hoff, hbit, hzero⟩ => (hlegal ⟨hwe, hoff, hbit⟩).1 hzero,
        if_neg fun ⟨hwe, hoff, hbit, hlt⟩ => absurd (hlegal ⟨hwe, hoff, hbit⟩).2 (Nat.not_le.mpr hlt)]
      exact hsame.trans BitVec.or_zero.symm

end

section
/-! SUPPORT. The reset value of FRAME, as the frame of black, as its three read words and on the pins
(70_reset_and_hazards.md rule R230). -/

namespace Sys2Proof.Machine

theorem reset_frame_eq_encodeFrame_black : State.reset.frame = encodeFrame { r := 0, g := 0, b := 0 } := rfl

theorem reset_frameWords : frameWord0 State.reset.frame = 0x00000000 ∧ frameWord1 State.reset.frame = 0x000000FF ∧
    frameWord2 State.reset.frame = 0xFFFFFFFF := by decide

theorem reset_frameOut : State.reset.frameOut = 0x00000000FF000000FFFFFFFF#96 := by decide

theorem State.applyReset_frameOut (s : State) : s.applyReset.frameOut = State.reset.frameOut := rfl

end Sys2Proof.Machine
end

section
/-! SUPPORT. The proof of the statement about the reset values in 70_reset_and_hazards.md. -/

open Sys2Proof Sys2Proof.Machine

/-- Settles O11: the step is `applyReset`, whose registers, frame and outputs are those of `State.reset`, whatever state
it is applied to. -/
theorem resetStepSetsEveryResetValue : Obligations.ResetStepSetsEveryResetValue := by
  intro s coinciding rest hp
  obtain ⟨rest', hstep⟩ := step_of_nextReset ⟨coinciding, rest, hp⟩
  obtain ⟨hword0, hword1, hword2⟩ := reset_frameWords
  have herrO : (s.beginStep rest').applyReset.errO = false := (errO_eq_false_iff _).mpr rfl
  have hframeOut := ((s.beginStep rest').applyReset_frameOut).trans reset_frameOut
  exact ⟨_, hstep, rfl, rfl, rfl, rfl, rfl, rfl, rfl, reset_frame_eq_encodeFrame_black, hword0, hword1, hword2, rfl,
    herrO, rfl, hframeOut⟩

end

section
/-! SUPPORT. The encoder against the decoder (30_encoding.md section 3): what a word built by the encoder, by a host access or by
an assembly line decodes to. -/

namespace Sys2Proof

theorem decode_encodeRead (r : Reg) : decode (encodeRead r) = .op (decodeRead r) := decode_mkHaw false r 0

theorem decode_encodeWrite (r : Reg) (d : Word) : decode (encodeWrite r d) = decodeWrite d r := decode_mkHaw true r d

/-- The encoding of every operation decodes to it: the encoding is a register's read, a register's write, or a write of CMD. -/
@[simp] theorem decode_encode (i : Instr) : decode (encode i) = .op i := by
  cases i with
  | rdCmd | rdStatus | rdStart | rdEnd | rdStep | rdTotal | rdColor | rdFrame0 | rdFrame1 | rdFrame2 =>
    exact decode_encodeRead _
  | wrStatus | wrStart | wrEnd | wrStep | wrTotal | wrColor => exact decode_encodeWrite _ _
  | nop => exact decode_encodeWrite .cmd 0
  | lerp => exact decode_encodeWrite .cmd 1
  | encode => exact decode_encodeWrite .cmd 2
  | lerpEnc => exact decode_encodeWrite .cmd 3

end Sys2Proof
end

section
/-! SUPPORT. The proof of the statement about the encoder in 30_encoding.md. -/

open Sys2Proof Sys2Proof.Machine

/-- Settles O1, by the kinds of words the encoder builds. -/
theorem decodeOfEncodeGivesTheOperationBack : Obligations.DecodeOfEncodeGivesTheOperationBack :=
  fun i _ => decode_encode i

end

section
/-! SUPPORT. One step by its input, and runs: every step answers a next state (70_reset_and_hazards.md rule R247), so a run is
its first step and the run from there. -/

namespace Sys2Proof.Machine

theorem step_idle {s : State} (h : s.pending = []) : step s = .next (s.beginStep []) := by
  simp [step, h]

theorem step_reset {s : State} {coinciding : Option Haw} {rest : List HostInput}
    (h : s.pending = .reset coinciding :: rest) : step s = .next (s.beginStep rest).applyReset := by
  simp [step, h, perform]

theorem step_access {s : State} {haw : Haw} {rest : List HostInput} (h : s.pending = .access haw :: rest) :
    step s = access haw (s.beginStep rest) := by
  simp [step, h, perform]

theorem step_answers (s : State) : ∃ t, step s = .next t := by
  cases hp : s.pending with
  | nil => exact ⟨_, step_idle hp⟩
  | cons input rest =>
    cases input with
    | reset coinciding => exact ⟨_, step_reset hp⟩
    | access haw =>
      obtain ⟨t, ht, -⟩ := access_answers haw (s.beginStep rest)
      exact ⟨t, (step_access hp).trans ht⟩

/-- A run of any machine is its first step and the run from there. -/
theorem run_succ_of_next {M : Host.Core} {s t : M.State} (h : M.step s = .next t) (k : Nat) :
    M.run (k + 1) s = M.run k t := by
  simp [Host.Core.run, h]

theorem run_succ {s t : State} (h : step s = .next t) (k : Nat) : core.run (k + 1) s = core.run k t :=
  run_succ_of_next (M := core) h k

theorem run_answers (k : Nat) (s : State) : ∃ t, core.run k s = .next t := by
  induction k generalizing s with
  | zero => exact ⟨s, rfl⟩
  | succ k ih =>
    obtain ⟨t, ht⟩ := step_answers s
    rw [run_succ ht k]
    exact ih t

/-- A property that every step keeps holds after any number of steps. -/
theorem run_induction {P : State → Prop} (hstep : ∀ s t, P s → step s = .next t → P t) {k : Nat} {s t : State} (hs : P s)
    (h : core.run k s = .next t) : P t := by
  induction k generalizing s with
  | zero =>
    cases h
    exact hs
  | succ k ih =>
    obtain ⟨u, hu⟩ := step_answers s
    rw [run_succ hu k] at h
    exact ih (hstep s u hs hu) h

end Sys2Proof.Machine
end

section
/-! SUPPORT. The proof of the statement about runs in 70_reset_and_hazards.md section 5. -/

open Sys2Proof Sys2Proof.Machine

/-- Settles O14, by induction over the number of steps: whatever is next, the step answers. -/
theorem noRunEverStops : Obligations.NoRunEverStops := run_answers

end

section
/-! SUPPORT. The invariant (10_state.md rules R34 and R35): the reset values meet it, and every operation on the state keeps
it. -/

namespace Sys2Proof.Machine

theorem encodeFrame_wellFormed (c : Color) : FrameWellFormed (encodeFrame c) :=
  ⟨rfl, rfl, rfl, rfl, hdr_eq, rfl, rfl, rfl, rfl⟩

/-- The black frame of reset is well formed. -/
theorem reset_frame_wellFormed : FrameWellFormed State.reset.frame := encodeFrame_wellFormed { r := 0, g := 0, b := 0 }

/-- The reset values meet the invariant under every legal configuration, whatever is pending and was read. -/
theorem inv_of_reset {c : Config} (hc : c.Legal) (pending : List HostInput) (log : List Word) :
    ({ State.reset with config := c, pending := pending, rdataLog := log } : State).Inv :=
  ⟨hc, reset_frame_wellFormed, by simp, rfl, by simp [State.CauseConsistent], ⟨Nat.two_pow_pos _, Nat.two_pow_pos _⟩, nofun⟩

theorem State.Inv.applyReset {s : State} (h : s.Inv) : s.applyReset.Inv := inv_of_reset h.1 s.pending s.rdataLog

/-- A step begins with the pulse over, so the invariant's clause about it is void. -/
theorem State.Inv.beginStep {s : State} (h : s.Inv) (rest : List HostInput) : (s.beginStep rest).Inv := by
  obtain ⟨hconfig, hframe, hout, hlast, hcause, hfit, -⟩ := h
  exact ⟨hconfig, hframe, hout, hlast, hcause, hfit, nofun⟩

/-- An operand written to STEP or TOTAL fits `STEP_W` bits (rule R75). -/
theorem stepOperand_fits {c : Config} (hc : c.Legal) (d : Word) : (stepOperand c.stepW d).toNat < 2 ^ c.stepW := by
  rw [stepOperand_toNat hc.2]
  exact Nat.mod_lt _ (Nat.two_pow_pos _)

theorem State.Inv.writeStep {s : State} (h : s.Inv) (d : Word) : (s.writeStep (stepOperand s.config.stepW d)).Inv := by
  obtain ⟨hconfig, hframe, hout, hlast, hcause, ⟨-, htotal⟩, hstrobe⟩ := h
  exact ⟨hconfig, hframe, hout, hlast, hcause, ⟨stepOperand_fits hconfig d, htotal⟩, hstrobe⟩

theorem State.Inv.writeTotal {s : State} (h : s.Inv) (d : Word) : (s.writeTotal (stepOperand s.config.stepW d)).Inv := by
  obtain ⟨hconfig, hframe, hout, hlast, hcause, ⟨hstep, -⟩, hstrobe⟩ := h
  exact ⟨hconfig, hframe, hout, hlast, hcause, ⟨hstep, stepOperand_fits hconfig d⟩, hstrobe⟩

/-- After an error a flag is set and FIRST_CAUSE is a cause code: this error's, or the one that was there (rule R205). -/
theorem State.CauseConsistent.recordError {s : State} (h : s.CauseConsistent) (c : ErrorCause) :
    (s.recordError c).CauseConsistent := by
  obtain ⟨hiff, hle⟩ := h
  obtain ⟨hcode, hcodeLe⟩ := causeCode_bounds c
  have hflag := errfAfterError_ne_zero c s.errf
  simp only [State.CauseConsistent, State.recordError_firstCause, State.recordError_errf, firstCauseAfterError]
  split
  · exact ⟨iff_of_false hcode hflag, hcodeLe⟩
  · next hset => exact ⟨iff_of_false (mt hiff.mp hset) hflag, hle⟩

/-- A clear takes FIRST_CAUSE to 0 with the last flag; while a flag remains there was one before (rule R103). -/
theorem State.CauseConsistent.clearErrors {s : State} (h : s.CauseConsistent) (mask : Nibble) :
    (s.clearErrors mask).CauseConsistent := by
  obtain ⟨hiff, hle⟩ := h
  simp only [State.CauseConsistent, State.clearErrors_firstCause, State.clearErrors_errf, firstCauseAfterClear]
  split
  · next hnone => exact ⟨iff_of_true rfl hnone, by decide⟩
  · next hsome =>
    have hset : s.errf ≠ 0b0000 := fun h0 => hsome (by rw [h0]; exact BitVec.zero_and)
    exact ⟨iff_of_false (mt hiff.mp hset) hsome, hle⟩

theorem State.Inv.recordError {s : State} (h : s.Inv) (c : ErrorCause) : (s.recordError c).Inv := by
  obtain ⟨hconfig, hframe, hout, hlast, hcause, hfit, hstrobe⟩ := h
  exact ⟨hconfig, hframe, hout, hlast, hcause.recordError c, hfit, hstrobe⟩

theorem State.Inv.clearErrors {s : State} (h : s.Inv) (mask : Nibble) : (s.clearErrors mask).Inv := by
  obtain ⟨hconfig, hframe, hout, hlast, hcause, hfit, hstrobe⟩ := h
  exact ⟨hconfig, hframe, hout, hlast, hcause.clearErrors mask, hfit, hstrobe⟩

/-- ENCODE emits the well-formed frame that it stores (rules R141, R144). -/
theorem State.Inv.encodeAndEmit {s : State} (h : s.Inv) : s.encodeAndEmit.Inv := by
  obtain ⟨hconfig, -, hout, -, hcause, hfit, -⟩ := h
  have hnew := encodeFrame_wellFormed (unpack s.colorReg)
  refine ⟨hconfig, hnew, ?_, ?_, hcause, hfit, ?_⟩
  · intro f hf
    obtain hf | hf := List.mem_append.mp hf
    · exact hout f hf
    · rwa [List.mem_singleton.mp hf]
  · simp [State.FrameIsLastEmitted]
  · simp

/-- A refused access records an error; a read's answer is no part of the invariant. -/
theorem State.Inv.refuseAccess {s : State} (h : s.Inv) (haw : Haw) (c : ErrorCause) : (s.refuseAccess haw c).Inv := by
  obtain ⟨-, hr⟩ | ⟨-, hr⟩ := refuseAccess_cases s haw c <;> rw [hr] <;> exact h.recordError c

/-- Every operation keeps the invariant, which does not speak of START, END, COLOR and the read data. -/
theorem exec_keeps_inv {i : Instr} {s t : State} (hs : s.Inv) (h : exec i s = .next t) : t.Inv := by
  rcases exec_cases h with ⟨_, w, -, rfl⟩ | ⟨d, -, rfl⟩ | ⟨d, -, rfl⟩ | ⟨d, -, rfl⟩ | ⟨d, -, rfl⟩ | ⟨d, -, rfl⟩ |
    ⟨d, -, rfl⟩ | ⟨-, rfl⟩ | ⟨-, rfl⟩ | ⟨c, -, -, rfl⟩ | ⟨-, -, rfl⟩ | ⟨-, -, rfl⟩
  · exact hs
  · exact hs.clearErrors _
  · exact hs
  · exact hs
  · exact hs.writeStep d
  · exact hs.writeTotal d
  · exact hs
  · exact hs
  · exact hs.encodeAndEmit
  · exact hs.recordError c
  · exact hs
  · exact State.Inv.encodeAndEmit hs

/-- Every step keeps the invariant. -/
theorem step_keeps_inv {s t : State} (hs : s.Inv) (h : step s = .next t) : t.Inv := by
  obtain ⟨-, rfl⟩ | ⟨_, rest, -, rfl⟩ | ⟨haw, rest, c, -, -, rfl⟩ | ⟨_, rest, _, -, -, hx⟩ := step_cases h
  · exact hs.beginStep []
  · exact (hs.beginStep rest).applyReset
  · exact (hs.beginStep rest).refuseAccess haw c
  · exact exec_keeps_inv (hs.beginStep rest) hx

end Sys2Proof.Machine
end

section
/-! SUPPORT. The proofs of the statements about the invariant in 10_state.md section 5. -/

open Sys2Proof Sys2Proof.Machine

/-- Settles O16, by what a step can be: idle, a reset, a refused access or an operation. -/
theorem everyStepKeepsTheInvariant : Obligations.EveryStepKeepsTheInvariant := fun _ _ => step_keeps_inv

/-- Settles O17: the reset values under this hardware's configuration, with nothing pending and nothing read. -/
theorem resetMeetsTheInvariant : Obligations.ResetMeetsTheInvariant :=
  inv_of_reset (c := Config.thisHardware) (by decide) [] []

/-- Settles O18, by induction over the run from reset. -/
theorem everyReachableStateMeetsTheInvariant : Obligations.EveryReachableStateMeetsTheInvariant :=
  fun _ inputs _ _ hc h => run_induction (fun _ _ => step_keeps_inv) (inv_of_reset hc inputs []) h

end

section
/-! SUPPORT. The bus window (20_memory.md rule R51) and the accesses of assembly lines (30_encoding.md rules R80, R81). -/

namespace Sys2Proof

/-- A bus access from `BASE` to `BASE + 0xFF` reaches the block at the offset `addr - BASE`. -/
theorem hawOfBus_inside {addr : Nat} (h : Config.base ≤ addr ∧ addr ≤ Config.base + 0xFF) (sz : BitVec 2) (we : Bool)
    (d : Word) : hawOfBus addr sz we d = some (mkHaw sz we (BitVec.ofNat 8 (addr - Config.base)) d) := by
  have hsize : Config.windowBytes = 256 := rfl
  rw [hawOfBus, if_pos (by omega)]

theorem hawOfBus_outside {addr : Nat} (h : addr < Config.base ∨ Config.base + 0xFF < addr) (sz : BitVec 2) (we : Bool)
    (d : Word) : hawOfBus addr sz we d = none := by
  have hsize : Config.windowBytes = 256 := rfl
  rw [hawOfBus, if_neg (by omega)]

/-- A number of at most 32 bits is its DATA word (rule R71). -/
theorem num_data_toNat {n : Nat} (h : n < 2 ^ 32) : (AsmValue.num n).data.toNat = n :=
  (BitVec.toNat_ofNat n 32).trans (Nat.mod_eq_of_lt h)

/-- A color operand of at most 24 bits is its DATA word (rule R80). -/
theorem rgb_data_toNat {n : Nat} (h : n < 2 ^ 24) : (AsmValue.rgb n).data.toNat = n :=
  num_data_toNat (h.trans (by decide))

/-- A CMD word above 3 has a reserved bit set (rule R74). -/
theorem decodeCmd_of_gt_three {d : Word} (h : 3 < d.toNat) : decodeCmd d = .error .cmdReserved := by
  obtain ⟨rfl, -⟩ | ⟨rfl, -⟩ | ⟨rfl, -⟩ | ⟨rfl, -⟩ | ⟨-, -, hc⟩ := decodeCmd_cases d
  · exact absurd h (by decide)
  · exact absurd h (by decide)
  · exact absurd h (by decide)
  · exact absurd h (by decide)
  · exact hc

/-- A CMD word of at most 3 is a command (rule R74). -/
theorem decodeCmd_of_le_three {d : Word} (h : d.toNat ≤ 3) : ∃ i, decodeCmd d = .op i := by
  obtain ⟨-, hc⟩ | ⟨-, hc⟩ | ⟨-, hc⟩ | ⟨-, hc⟩ | ⟨hgt, -⟩ := decodeCmd_cases d
  · exact ⟨_, hc⟩
  · exact ⟨_, hc⟩
  · exact ⟨_, hc⟩
  · exact ⟨_, hc⟩
  · exact absurd h (Nat.not_le.mpr hgt)

theorem decode_memWriteHaw (r : Reg) (d : Word) : decode (memWriteHaw r.offset d) = decodeWrite d r :=
  decode_encodeWrite r d

/-- The only `WR` lines an assembler warns on are those of CMD with a value above 3 (rule R80). -/
theorem wr_warns_iff (r : Reg) (v : AsmValue) : (AsmLine.wr r v).warns = true ↔ r = .cmd ∧ 3 < v.data.toNat :=
  decide_eq_true_iff

/-- A write to a register that `WR` may name is an operation, unless it is one of CMD with a value above 3. -/
theorem decodeWrite_of_asmWritable {r : Reg} (hr : r.asmWritable = true) {d : Word} (h : ¬ (r = .cmd ∧ 3 < d.toNat)) :
    ∃ i, decodeWrite d r = .op i := by
  cases r with
  | cmd => exact decodeCmd_of_le_three (Nat.not_lt.mp fun hgt => h ⟨rfl, hgt⟩)
  | status | start | endc | step | total | color => exact ⟨_, rfl⟩
  | frame0 | frame1 | frame2 => cases hr

/-- Only `WR` lines can be warned on. -/
theorem wr_of_warns {line : AsmLine} (h : line.warns = true) : ∃ v, line = .wr .cmd v ∧ 3 < v.data.toNat := by
  cases line with
  | wr r v =>
    obtain ⟨rfl, hgt⟩ := (wr_warns_iff r v).mp h
    exact ⟨v, rfl, hgt⟩
  | _ => cases h

/-- Every access of a line is the word of an operation, except `WR` lines, whose access is a register's write. -/
theorem assemble_cases (line : AsmLine) :
    (∃ is : List Instr, assemble line = is.map encode) ∨
    (∃ r v, line = .wr r v ∧ assemble line = [memWriteHaw r.offset v.data]) := by
  cases line with
  | rd r e => exact .inl ⟨[decodeRead r], by cases r <;> rfl⟩
  | wr r v => exact .inr ⟨r, v, rfl, rfl⟩
  | nop => exact .inl ⟨[.nop], rfl⟩
  | lerp => exact .inl ⟨[.lerp], rfl⟩
  | encode => exact .inl ⟨[.encode], rfl⟩
  | lerpEnc => exact .inl ⟨[.lerpEnc], rfl⟩
  | comment => exact .inl ⟨[], rfl⟩
  | setPair s e => exact .inl ⟨[.wrStart s.data, .wrEnd e.data], rfl⟩
  | showColor c => exact .inl ⟨[.wrColor c.data, .encode], rfl⟩
  | stepTo k => exact .inl ⟨[.wrStep k.data, .lerpEnc], rfl⟩
  | clrErr => exact .inl ⟨[.wrStatus 0xF], rfl⟩

/-- The access of a `WR CMD` line with a value above 3 is `CMD_RESERVED` (rules R77, R80). -/
theorem decode_wr_cmd_of_gt_three {v : AsmValue} (h : 3 < v.data.toNat) :
    decode (memWriteHaw Reg.cmd.offset v.data) = .error .cmdReserved :=
  (decode_memWriteHaw .cmd v.data).trans (decodeCmd_of_gt_three h)

end Sys2Proof
end

section
/-! SUPPORT. The proofs of the statements about the window (20_memory.md section 1), the worked encodings and the assembler
(30_encoding.md section 5). -/

open Sys2Proof Sys2Proof.Machine

/-- Settles O6: `BASE` is 256 times a block number, and inside the window `addr - BASE` fits the offset's 8 bits. -/
theorem theWindowIsBaseToBasePlus255 : Obligations.TheWindowIsBaseToBasePlus255 := by
  refine ⟨Dvd.intro _ rfl, fun addr sz we d => ⟨fun h => ?_, fun h => hawOfBus_outside h sz we d⟩⟩
  refine ⟨_, hawOfBus_inside h sz we d, mkHaw_sz .., mkHaw_we .., mkHaw_data .., ?_⟩
  rw [mkHaw_off, BitVec.toNat_ofNat, Nat.mod_eq_of_lt (by omega)]

/-- Settles O8: the warned lines are the `WR CMD` lines above 3; every other line assembles to encodings of operations or to
one write that the decoder takes. -/
theorem assembledLinesAreLegalUnlessWarned : Obligations.AssembledLinesAreLegalUnlessWarned := by
  intro line hwf
  constructor
  · intro hwarns haw hmem
    obtain ⟨is, his⟩ | ⟨r, v, rfl, -⟩ := assemble_cases line
    · rw [his] at hmem
      obtain ⟨i, -, rfl⟩ := List.mem_map.mp hmem
      exact ⟨i, decode_encode i⟩
    · obtain ⟨hr, -⟩ := Bool.and_eq_true_iff.mp hwf
      rw [List.mem_singleton.mp hmem, decode_memWriteHaw]
      exact decodeWrite_of_asmWritable hr (mt (wr_warns_iff r v).mpr (by simp [hwarns]))
  · intro hwarns
    obtain ⟨v, rfl, hgt⟩ := wr_of_warns hwarns
    exact ⟨_, rfl, decode_wr_cmd_of_gt_three hgt⟩

/-- Settles O50: the lines' words are the encoder's by definition; `WR CMD` is the write of any value, and above 3 it is
`CMD_RESERVED`. -/
theorem assemblyLinesAreTheirAccesses : Obligations.AssemblyLinesAreTheirAccesses := by
  refine ⟨fun e => ⟨rfl, rfl, rfl, rfl, rfl, rfl, rfl, rfl, rfl, rfl⟩,
    fun v => ⟨rfl, rfl, rfl, rfl, rfl, rfl, _, rfl, mkHaw_sz .., mkHaw_we .., mkHaw_off .., mkHaw_data ..⟩,
    fun n => ⟨num_data_toNat, rgb_data_toNat⟩, ⟨rfl, rfl, rfl, rfl, rfl, rfl, rfl, rfl⟩, fun n hgt hlt => ?_, fun _ => rfl⟩
  have hdata : 3 < (AsmValue.num n).data.toNat := by rwa [num_data_toNat hlt]
  exact ⟨decide_eq_true hlt, (wr_warns_iff _ _).mpr ⟨rfl, hdata⟩, _, rfl, decode_wr_cmd_of_gt_three hdata⟩

/-- Settles O5, by evaluating the decoder on each of the words. -/
theorem workedEncodingsDecodeToTheirOperations : Obligations.WorkedEncodingsDecodeToTheirOperations :=
  ⟨by decide, by decide, by decide, by decide⟩

end

section
/-! SUPPORT. The proofs of the statements about one step in 40_host_access.md section 1, 60_exceptions.md section 1 and
70_reset_and_hazards.md section 1. -/

open Sys2Proof Sys2Proof.Machine

/-- Settles O9: the step is the access, and the access is the operation it decodes to. -/
theorem stepRunsTheDecodedOperation : Obligations.StepRunsTheDecodedOperation :=
  fun s _ rest _ hp hd => (step_access hp).trans (access_of_decode_op hd (s.beginStep rest))

/-- Settles O10: the step is the refusal of the access, which only a read answers with data. -/
theorem stepRecordsARefusedAccess : Obligations.StepRecordsARefusedAccess := by
  intro s haw rest c hp hd
  rw [step_access hp, access_of_decode_error hd, ← causeFlag_eq_shift]
  obtain ⟨hwe, hr⟩ | ⟨hwe, hr⟩ := refuseAccess_cases (s.beginStep rest) haw c
  · rw [hr, hwe]
    rfl
  · rw [hr, hwe]
    rfl

/-- Settles O12: the step is `applyReset`, which takes over these three fields and nothing else. -/
theorem resetStepKeepsWhatIsNotCifeState : Obligations.ResetStepKeepsWhatIsNotCifeState :=
  fun _ _ _ hp => step_reset hp

/-- Settles O13: a step with nothing pending only begins. -/
theorem idleStepChangesNoRegister : Obligations.IdleStepChangesNoRegister := by
  intro s hp
  rw [step_idle hp, State.beginStep, ← hp]

end

section
/-! SUPPORT. What an operation and a step do to each part of the state: the read data and its log, the frame and the output, the
registers (10_state.md section 3, 20_memory.md section 5), each from the inversion of `exec` and `step`. -/

namespace Sys2Proof

/-- The write of a register is no read. -/
theorem decodeWrite_ne_read (d : Word) (r r' : Reg) : decodeWrite d r ≠ .op (decodeRead r') := by
  intro h
  cases r with
  | cmd =>
    obtain ⟨-, hc⟩ | ⟨-, hc⟩ | ⟨-, hc⟩ | ⟨-, hc⟩ | ⟨-, -, hc⟩ := decodeCmd_cases d <;>
      cases r' <;> cases hc.symm.trans h
  | _ => cases r' <;> cases h

/-- An access decodes to a read exactly when it is no write (rule R73). -/
theorem isRead_iff_of_decode {haw : Haw} {i : Instr} (h : decode haw = .op i) :
    (∃ r, i = decodeRead r) ↔ haw.we = false := by
  obtain ⟨-, hd⟩ | ⟨-, -, -, hd⟩ | ⟨r, -, -, hwe, hd⟩ | ⟨r, -, -, hwe, hd⟩ := decode_cases haw
  · cases hd.symm.trans h
  · cases hd.symm.trans h
  · cases hd.symm.trans h
    exact iff_of_true ⟨r, rfl⟩ hwe
  · refine iff_of_false ?_ (by simp [hwe])
    rintro ⟨r', rfl⟩
    exact decodeWrite_ne_read _ _ _ (hd.symm.trans h)

end Sys2Proof

namespace Sys2Proof.Machine

/-- No operation changes the configuration (10_state.md rule R20). -/
theorem exec_config {i : Instr} {s t : State} (h : exec i s = .next t) : t.config = s.config := by
  rcases exec_cases h with ⟨_, _, -, rfl⟩ | ⟨_, -, rfl⟩ | ⟨_, -, rfl⟩ | ⟨_, -, rfl⟩ | ⟨_, -, rfl⟩ | ⟨_, -, rfl⟩ |
    ⟨_, -, rfl⟩ | ⟨-, rfl⟩ | ⟨-, rfl⟩ | ⟨_, -, -, rfl⟩ | ⟨-, -, rfl⟩ | ⟨-, -, rfl⟩ <;> rfl

/-- A read logs what it returned (rule R247). -/
theorem exec_log_of_read {r : Reg} {s t : State} (h : exec (decodeRead r) s = .next t) :
    t.rdataLog = s.rdataLog ++ [t.hrdata] := by
  obtain ⟨w, hw⟩ := exec_decodeRead r s
  cases hw.symm.trans h
  rfl

/-- An operation that is no read leaves the read data bus and the log alone (rules R100, R247). -/
theorem exec_log_of_not_read {i : Instr} {s t : State} (hi : ¬ ∃ r, i = decodeRead r) (h : exec i s = .next t) :
    t.rdataLog = s.rdataLog ∧ t.hrdata = s.hrdata := by
  rcases exec_cases h with ⟨r, _, hr, -⟩ | ⟨_, -, rfl⟩ | ⟨_, -, rfl⟩ | ⟨_, -, rfl⟩ | ⟨_, -, rfl⟩ | ⟨_, -, rfl⟩ |
    ⟨_, -, rfl⟩ | ⟨-, rfl⟩ | ⟨-, rfl⟩ | ⟨_, -, -, rfl⟩ | ⟨-, -, rfl⟩ | ⟨-, -, rfl⟩
  · exact absurd ⟨r, hr⟩ hi
  all_goals exact ⟨rfl, rfl⟩

/-- A refused access changes nothing but the error record and, on a read, the read data (rules R100, R205). -/
theorem refuseAccess_frame (s : State) (haw : Haw) (c : ErrorCause) :
    ∃ errf firstCause hrdata log, s.refuseAccess haw c =
      { s with errf := errf, firstCause := firstCause, hrdata := hrdata, rdataLog := log } := by
  obtain ⟨-, h⟩ | ⟨-, h⟩ := refuseAccess_cases s haw c
  · exact ⟨_, _, s.hrdata, s.rdataLog, h⟩
  · exact ⟨_, _, _, _, h⟩

/-- The operation `i` emits a frame in the state `s`: a successful ENCODE or LERP_ENC (20_memory.md rule R63). -/
def State.Emits (s : State) (i : Instr) : Prop :=
  i = .encode ∨ (i = .lerpEnc ∧ s.LerpOperandsLegal)

/-- Every operation but ENCODE and LERP_ENC leaves the frame, the output and the strobe alone (rule R243). -/
theorem exec_frame_of_not_encode {i : Instr} {s t : State} (hencode : i ≠ .encode) (hlerpEnc : i ≠ .lerpEnc)
    (h : exec i s = .next t) : t.frameStrobe = s.frameStrobe ∧ t.framesOut = s.framesOut ∧ t.frame = s.frame := by
  rcases exec_cases h with ⟨_, _, -, rfl⟩ | ⟨_, -, rfl⟩ | ⟨_, -, rfl⟩ | ⟨_, -, rfl⟩ | ⟨_, -, rfl⟩ | ⟨_, -, rfl⟩ |
    ⟨_, -, rfl⟩ | ⟨-, rfl⟩ | ⟨hi, -⟩ | ⟨_, -, -, rfl⟩ | ⟨-, -, rfl⟩ | ⟨hi, -, -⟩
  iterate 8 exact ⟨rfl, rfl, rfl⟩
  · exact absurd hi hencode
  iterate 2 exact ⟨rfl, rfl, rfl⟩
  · exact absurd hi hlerpEnc

/-- An emitting operation appends to `FRAMES_OUT` the frame of COLOR that FRAME now holds; every other one leaves the frame,
the output and the strobe alone. -/
theorem exec_frame_cases {i : Instr} {s t : State} (h : exec i s = .next t) :
    (s.Emits i ∧ t.frameStrobe = true ∧ t.framesOut = s.framesOut ++ [t.frame] ∧
      t.frame = encodeFrame (unpack t.colorReg)) ∨
    (¬ s.Emits i ∧ t.frameStrobe = s.frameStrobe ∧ t.framesOut = s.framesOut ∧ t.frame = s.frame) := by
  by_cases hencode : i = .encode
  · subst hencode
    cases h
    exact .inl ⟨.inl rfl, rfl, rfl, rfl⟩
  by_cases hlerpEnc : i = .lerpEnc
  · subst hlerpEnc
    cases hc : lerpCheck s.stepReg s.totalReg with
    | none =>
      have hlegal := (lerpCheck_none_iff _ _).mp hc
      cases (exec_lerpEnc_of_legal hlegal).symm.trans h
      exact .inl ⟨.inr ⟨rfl, hlegal⟩, rfl, rfl, rfl⟩
    | some c =>
      have hillegal : ¬ s.LerpOperandsLegal := mt (lerpCheck_none_iff _ _).mpr (by simp [hc])
      cases (exec_lerpEnc_of_error hc).symm.trans h
      exact .inr ⟨by simp [State.Emits, hillegal], rfl, rfl, rfl⟩
  · exact .inr ⟨by simp [State.Emits, hencode, hlerpEnc], exec_frame_of_not_encode hencode hlerpEnc h⟩

/-- `frame_out` shows FRAME and nothing else (rule R30). -/
theorem frameOut_congr {s t : State} (h : t.frame = s.frame) : t.frameOut = s.frameOut := by
  simp only [State.frameOut, h]

/-- START, END, STEP and TOTAL change only by their own write; COLOR only by its write or a LERP pass with legal operands. -/
theorem exec_changes_own_register {i : Instr} {s t : State} (h : exec i s = .next t) :
    (t.startReg ≠ s.startReg → ∃ d, i = .wrStart d) ∧ (t.endReg ≠ s.endReg → ∃ d, i = .wrEnd d) ∧
    (t.stepReg ≠ s.stepReg → ∃ d, i = .wrStep d) ∧ (t.totalReg ≠ s.totalReg → ∃ d, i = .wrTotal d) ∧
    (t.colorReg ≠ s.colorReg → (∃ d, i = .wrColor d) ∨ ((i = .lerp ∨ i = .lerpEnc) ∧ s.LerpOperandsLegal)) := by
  rcases exec_cases h with ⟨_, _, -, rfl⟩ | ⟨_, -, rfl⟩ | ⟨_, rfl, rfl⟩ | ⟨_, rfl, rfl⟩ | ⟨_, rfl, rfl⟩ |
    ⟨_, rfl, rfl⟩ | ⟨_, rfl, rfl⟩ | ⟨-, rfl⟩ | ⟨-, rfl⟩ | ⟨_, -, -, rfl⟩ | ⟨rfl, hc, rfl⟩ | ⟨rfl, hc, rfl⟩
  iterate 10 simp
  iterate 2 simpa using fun _ => (lerpCheck_none_iff _ _).mp hc

/-- With an access in front that decodes to `i`, the next operation is `i` and no other. -/
theorem nextOp_iff_of_decode {s : State} {haw : Haw} {rest : List HostInput} {i j : Instr}
    (hp : s.pending = .access haw :: rest) (hd : decode haw = .op i) : s.NextOp j ↔ j = i := by
  simp [State.NextOp, hp, hd, eq_comm]

/-- The next input is an access that emits a frame. -/
def State.NextEmits (s : State) : Prop :=
  s.NextOp .encode ∨ (s.NextOp .lerpEnc ∧ s.LerpOperandsLegal)

theorem nextEmits_iff_of_decode {s : State} {haw : Haw} {rest : List HostInput} {i : Instr}
    (hp : s.pending = .access haw :: rest) (hd : decode haw = .op i) : s.NextEmits ↔ s.Emits i := by
  rw [State.NextEmits, State.Emits, nextOp_iff_of_decode hp hd, nextOp_iff_of_decode hp hd, @eq_comm _ i, @eq_comm _ i]

/-- A step pulses the strobe exactly when its input emits a frame; otherwise only a reset touches FRAME and `FRAMES_OUT`. -/
theorem step_frame_cases {s t : State} (h : step s = .next t) :
    (s.NextEmits ∧ t.frameStrobe = true ∧ t.framesOut = s.framesOut ++ [t.frame] ∧
      t.frame = encodeFrame (unpack t.colorReg)) ∨
    (¬ s.NextEmits ∧ t.frameStrobe = false ∧ (s.NextReset ∨ t.framesOut = s.framesOut ∧ t.frame = s.frame)) := by
  obtain ⟨hp, rfl⟩ | ⟨co, rest, hp, rfl⟩ | ⟨haw, rest, c, hp, hd, rfl⟩ | ⟨haw, rest, i, hp, hd, hx⟩ := step_cases h
  · exact .inr ⟨by simp [State.NextEmits, hp], rfl, .inr ⟨rfl, rfl⟩⟩
  · exact .inr ⟨by simp [State.NextEmits, hp], rfl, .inl ⟨co, rest, hp⟩⟩
  · obtain ⟨_, _, _, _, heq⟩ := refuseAccess_frame (s.beginStep rest) haw c
    rw [heq]
    exact .inr ⟨by simp [State.NextEmits, hp, hd], rfl, .inr ⟨rfl, rfl⟩⟩
  · rw [nextEmits_iff_of_decode hp hd]
    exact (exec_frame_cases hx).imp id fun ⟨hno, hstrobe, hout, hframe⟩ => ⟨hno, hstrobe, .inr ⟨hout, hframe⟩⟩

end Sys2Proof.Machine
end

section
/-! SUPPORT. What an operation reads: two states that differ only in `FRAMES_OUT`, the run's log and the pending inputs are
treated alike (10_state.md rules R31 and R36). -/

namespace Sys2Proof.Machine

/-- `s` with another `FRAMES_OUT`, another log of read data and other inputs to come. -/
def State.withHistory (s : State) (frames : List Frame) (log : List Word) (pending : List HostInput) : State :=
  { s with framesOut := frames, rdataLog := log, pending := pending }

/-- A state function appends the same frames and words to whatever history it finds, and otherwise leads to the same state
whatever the history. -/
def IgnoresHistory (f : State → Result) (s : State) : Prop :=
  ∃ (t : State) (newFrames : List Frame) (newWords : List Word), ∀ frames log pending, f (s.withHistory frames log pending) =
    .next (t.withHistory (frames ++ newFrames) (log ++ newWords) pending)

theorem ignoresHistory_of_quiet {f : State → Result} {s t : State}
    (h : ∀ frames log pending, f (s.withHistory frames log pending) = .next (t.withHistory frames log pending)) :
    IgnoresHistory f s :=
  ⟨t, [], [], fun _ _ _ => by rw [List.append_nil, List.append_nil, h]⟩

theorem ignoresHistory_of_read {f : State → Result} {s t : State} {w : Word}
    (h : ∀ frames log pending,
      f (s.withHistory frames log pending) = .next ((t.withHistory frames log pending).returnData w)) :
    IgnoresHistory f s :=
  ⟨{ t with hrdata := w }, [], [w], fun _ _ _ => by rw [List.append_nil, h]; rfl⟩

theorem ignoresHistory_of_encode {f : State → Result} {s t : State}
    (h : ∀ frames log pending,
      f (s.withHistory frames log pending) = .next (t.withHistory frames log pending).encodeAndEmit) :
    IgnoresHistory f s :=
  ⟨t.encodeAndEmit, [encodeFrame (unpack t.colorReg)], [], fun _ _ _ => by rw [List.append_nil, h]; rfl⟩

/-- No operation looks at `FRAMES_OUT`, the log or the pending inputs (rule R31). -/
theorem exec_ignoresHistory (i : Instr) (s : State) : IgnoresHistory (exec i) s := by
  cases i with
  | rdCmd => exact ignoresHistory_of_read (t := s) (w := 0) fun _ _ _ => rfl
  | rdStatus => exact ignoresHistory_of_read (t := s) (w := s.status) fun _ _ _ => rfl
  | rdStart => exact ignoresHistory_of_read (t := s) (w := colorWord s.startReg) fun _ _ _ => rfl
  | rdEnd => exact ignoresHistory_of_read (t := s) (w := colorWord s.endReg) fun _ _ _ => rfl
  | rdStep => exact ignoresHistory_of_read (t := s) (w := stepWord s.stepReg) fun _ _ _ => rfl
  | rdTotal => exact ignoresHistory_of_read (t := s) (w := stepWord s.totalReg) fun _ _ _ => rfl
  | rdColor => exact ignoresHistory_of_read (t := s) (w := colorWord s.colorReg) fun _ _ _ => rfl
  | rdFrame0 => exact ignoresHistory_of_read (t := s) (w := frameWord0 s.frame) fun _ _ _ => rfl
  | rdFrame1 => exact ignoresHistory_of_read (t := s) (w := frameWord1 s.frame) fun _ _ _ => rfl
  | rdFrame2 => exact ignoresHistory_of_read (t := s) (w := frameWord2 s.frame) fun _ _ _ => rfl
  | wrStatus d => exact ignoresHistory_of_quiet (t := s.clearErrors (clearMask d)) fun _ _ _ => rfl
  | wrStart d => exact ignoresHistory_of_quiet (t := s.writeStart (colorOperand d)) fun _ _ _ => rfl
  | wrEnd d => exact ignoresHistory_of_quiet (t := s.writeEnd (colorOperand d)) fun _ _ _ => rfl
  | wrStep d => exact ignoresHistory_of_quiet (t := s.writeStep (stepOperand s.config.stepW d)) fun _ _ _ => rfl
  | wrTotal d => exact ignoresHistory_of_quiet (t := s.writeTotal (stepOperand s.config.stepW d)) fun _ _ _ => rfl
  | wrColor d => exact ignoresHistory_of_quiet (t := s.writeColor (colorOperand d)) fun _ _ _ => rfl
  | nop => exact ignoresHistory_of_quiet (t := s) fun _ _ _ => rfl
  | encode => exact ignoresHistory_of_encode (t := s) fun _ _ _ => rfl
  | lerp =>
    cases hc : lerpCheck s.stepReg s.totalReg with
    | some c => exact ignoresHistory_of_quiet (t := s.recordError c) fun _ _ _ => exec_lerp_of_error hc
    | none =>
      have hlegal := (lerpCheck_none_iff _ _).mp hc
      exact ignoresHistory_of_quiet (t := s.writeColor s.interpolated) fun _ _ _ => exec_lerp_of_legal hlegal
  | lerpEnc =>
    cases hc : lerpCheck s.stepReg s.totalReg with
    | some c => exact ignoresHistory_of_quiet (t := s.recordError c) fun _ _ _ => exec_lerpEnc_of_error hc
    | none =>
      have hlegal := (lerpCheck_none_iff _ _).mp hc
      exact ignoresHistory_of_encode (t := s.writeColor s.interpolated) fun _ _ _ => exec_lerpEnc_of_legal hlegal

/-- No access does either, be it an operation or refused. -/
theorem access_ignoresHistory (haw : Haw) (s : State) : IgnoresHistory (access haw) s := by
  cases hd : decode haw with
  | op i =>
    rw [show access haw = exec i from funext (access_of_decode_op hd)]
    exact exec_ignoresHistory i s
  | error c =>
    rw [show access haw = fun u => .next (u.refuseAccess haw c) from funext (access_of_decode_error hd)]
    cases hwe : haw.we with
    | true => exact ignoresHistory_of_quiet (t := s.recordError c) fun _ _ _ => by simp [State.refuseAccess, hwe]; rfl
    | false => exact ignoresHistory_of_read (t := s.recordError c) fun _ _ _ => by simp [State.refuseAccess, hwe]; rfl

/-- A step does not depend on `FRAMES_OUT`: an access appends to it, a reset empties it, and nothing looks at it. -/
theorem step_ignores_framesOut {s t : State} (h : step s = .next t) (l : List Frame) :
    ∃ l', step { s with framesOut := l } = .next { t with framesOut := l' } := by
  have haccess : ∀ haw rest, s.pending = .access haw :: rest →
      ∃ l', step { s with framesOut := l } = .next { t with framesOut := l' } := by
    intro haw rest hp
    obtain ⟨u, newFrames, newWords, hu⟩ := access_ignoresHistory haw (s.beginStep rest)
    cases ((step_access hp).trans (hu s.framesOut s.rdataLog rest)).symm.trans h
    exact ⟨l ++ newFrames, (step_access (s := { s with framesOut := l }) hp).trans (hu l s.rdataLog rest)⟩
  obtain ⟨hp, rfl⟩ | ⟨_, rest, hp, rfl⟩ | ⟨haw, rest, _, hp, -⟩ | ⟨haw, rest, _, hp, -⟩ := step_cases h
  · exact ⟨l, step_idle (s := { s with framesOut := l }) hp⟩
  · exact ⟨[], step_reset (s := { s with framesOut := l }) hp⟩
  · exact haccess haw rest hp
  · exact haccess haw rest hp

/-- Two states with the same record and configuration begin a step in states that differ only in the log and the pending
inputs. -/
theorem beginStep_of_sameRecord {s s' : State} (h : s.SameRecord s') (hconfig : s.config = s'.config)
    (pending pending' : List HostInput) :
    s'.beginStep pending' = (s.beginStep pending).withHistory s.framesOut s'.rdataLog pending' := by
  obtain ⟨hstart, hend, hstep, htotal, hcolor, hframe, herrf, hfirst, hout⟩ := h
  simp only [State.beginStep, State.withHistory, hstart, hend, hstep, htotal, hcolor, hframe, herrf, hfirst, hout, hconfig]

end Sys2Proof.Machine
end

section
/-! SUPPORT. Repeating an operation (20_memory.md rule R56). -/

namespace Sys2Proof.Machine

theorem errfAfterError_twice (c : ErrorCause) (e : Nibble) : errfAfterError c (errfAfterError c e) = errfAfterError c e := by
  simp [errfAfterError, BitVec.or_assoc]

theorem errfAfterClear_twice (m e : Nibble) : errfAfterClear m (errfAfterClear m e) = errfAfterClear m e := by
  simp [errfAfterClear, BitVec.and_assoc]

/-- A second error of the same cause finds a flag set, so FIRST_CAUSE stays (rule R205). -/
theorem recordError_twice (s : State) (c : ErrorCause) : (s.recordError c).recordError c = s.recordError c := by
  have hfirst (f : Nibble) : firstCauseAfterError c (errfAfterError c s.errf) f = f := if_neg (errfAfterError_ne_zero c s.errf)
  simp only [State.recordError, hfirst, errfAfterError_twice]

theorem clearErrors_twice (s : State) (m : Nibble) : (s.clearErrors m).clearErrors m = s.clearErrors m := by
  have hfirst : firstCauseAfterClear m (errfAfterClear m s.errf) (firstCauseAfterClear m s.errf s.firstCause) =
      firstCauseAfterClear m s.errf s.firstCause := by
    simp only [firstCauseAfterClear, errfAfterClear_twice]
    split <;> rfl
  simp only [State.clearErrors, hfirst, errfAfterClear_twice]

/-- Repeating any operation but ENCODE and LERP_ENC leaves the record as the first one left it. -/
theorem exec_twice_sameRecord {i : Instr} {s t u : State} (hencode : i ≠ .encode) (hlerpEnc : i ≠ .lerpEnc)
    (h : exec i s = .next t) (h' : exec i t = .next u) : u.SameRecord t := by
  have hsame : ∀ v : State, v.SameRecord v := fun _ => ⟨rfl, rfl, rfl, rfl, rfl, rfl, rfl, rfl, rfl⟩
  cases i with
  | encode => exact absurd rfl hencode
  | lerpEnc => exact absurd rfl hlerpEnc
  | wrStatus d =>
    cases h
    cases h'
    rw [clearErrors_twice]
    exact hsame _
  | lerp =>
    cases hc : lerpCheck s.stepReg s.totalReg with
    | some c =>
      cases (exec_lerp_of_error hc).symm.trans h
      cases (exec_lerp_of_error (s := s.recordError c) hc).symm.trans h'
      rw [recordError_twice]
      exact hsame _
    | none =>
      have hlegal := (lerpCheck_none_iff _ _).mp hc
      cases (exec_lerp_of_legal hlegal).symm.trans h
      cases (exec_lerp_of_legal (s := s.writeColor s.interpolated) hlegal).symm.trans h'
      exact hsame _
  | _ =>
    cases h
    cases h'
    exact hsame _

end Sys2Proof.Machine
end

section
/-! SUPPORT. The proofs of the statements about what a step and an operation change and read (10_state.md sections 3 and 4,
20_memory.md sections 3 and 5, 40_host_access.md section 1, 70_reset_and_hazards.md section 3). -/

open Sys2Proof Sys2Proof.Machine

/-- Settles O15, by what a step can be; among the operations, the reads are the accesses that are no writes. -/
theorem eachStepTakesOneInputAndLogsOnlyReads : Obligations.EachStepTakesOneInputAndLogsOnlyReads := by
  intro s t h
  obtain ⟨hp, rfl⟩ | ⟨co, rest, hp, rfl⟩ | ⟨haw, rest, c, hp, hd, rfl⟩ | ⟨haw, rest, i, hp, hd, hx⟩ := step_cases h
  · exact ⟨by simp [hp], rfl, by simp [hp], fun _ => ⟨rfl, rfl⟩⟩
  · exact ⟨by simp [hp], rfl, by simp [hp], fun _ => ⟨rfl, rfl⟩⟩
  · obtain ⟨hwe, hr⟩ | ⟨hwe, hr⟩ := refuseAccess_cases (s.beginStep rest) haw c
    · rw [hr]
      exact ⟨by simp [hp], rfl, by simp [hp, hwe], fun _ => ⟨rfl, rfl⟩⟩
    · rw [hr]
      exact ⟨by simp [hp], rfl, by simp, by simp [hp, hwe]⟩
  · refine ⟨by simp [hp, exec_pending hx], exec_config (s := s.beginStep rest) hx, ?_, ?_⟩
    · intro haw' rest' hp' hwe
      cases hp.symm.trans hp'
      obtain ⟨r, rfl⟩ := (isRead_iff_of_decode hd).mpr hwe
      exact exec_log_of_read (s := s.beginStep rest) hx
    · intro hwrite
      have hnotRead := mt (isRead_iff_of_decode hd).mp (by simp [hwrite haw rest hp])
      exact exec_log_of_not_read (s := s.beginStep rest) hnotRead hx

/-- Settles O19: `step_frame_cases` gives for each step whether it emits, and what it then does. -/
theorem framesGoOutExactlyAtSuccessfulEncodes : Obligations.FramesGoOutExactlyAtSuccessfulEncodes := by
  intro s t h
  obtain ⟨hemits, hstrobe, hout⟩ | ⟨hno, hstrobe, hkept⟩ := step_frame_cases h
  · exact ⟨iff_of_true hstrobe hemits, fun _ => hout, by simp [hstrobe]⟩
  · exact ⟨iff_of_false (by simp [hstrobe]) hno, by simp [hstrobe],
      fun _ => hkept.imp_right fun ⟨hout, hframe⟩ => ⟨hout, hframe, frameOut_congr hframe⟩⟩

/-- Settles O20: an idle step and a refused access change no register, and an operation only its own. -/
theorem registersChangeOnlyByTheirOwnAccesses : Obligations.RegistersChangeOnlyByTheirOwnAccesses := by
  intro s t h hnoReset
  obtain ⟨-, rfl⟩ | ⟨co, rest, hp, -⟩ | ⟨haw, rest, c, -, -, rfl⟩ | ⟨haw, rest, i, hp, hd, hx⟩ := step_cases h
  · exact ⟨absurd rfl, absurd rfl, absurd rfl, absurd rfl, absurd rfl⟩
  · exact absurd ⟨co, rest, hp⟩ hnoReset
  · obtain ⟨_, _, _, _, heq⟩ := refuseAccess_frame (s.beginStep rest) haw c
    rw [heq]
    exact ⟨absurd rfl, absurd rfl, absurd rfl, absurd rfl, absurd rfl⟩
  · simp only [nextOp_iff_of_decode hp hd, @eq_comm _ _ i]
    exact exec_changes_own_register (s := s.beginStep rest) hx

/-- Settles O21: an error sets its own flag and clears none, WR_STATUS clears those of its mask and sets none, reset clears
all, and no other step touches the flags. -/
theorem flagsAreStickyAndSetOnlyByErrors : Obligations.FlagsAreStickyAndSetOnlyByErrors := by
  intro s t h
  refine ⟨fun c hoff hon => ?_, fun c hon hoff => ?_, fun hne => ?_⟩
  · obtain ⟨c', hr⟩ | hreset | ⟨d, hop⟩ | ⟨hsame, -⟩ := step_flags_cases h
    · by_cases hc : c' = c
      · exact hc ▸ hr
      · rw [(step_flags_of_nextRaises hr h).1, errfAfterError_other hc] at hon
        exact absurd hoff hon
    · rw [step_errf_of_nextReset hreset h] at hon
      exact absurd BitVec.zero_and hon
    · rw [step_errf_of_wrStatus hop h] at hon
      exact absurd (errfAfterClear_sets_nothing _ _ _ hoff) hon
    · exact absurd hoff (hsame ▸ hon)
  · obtain ⟨c', hr⟩ | hreset | ⟨d, hop⟩ | ⟨hsame, -⟩ := step_flags_cases h
    · rw [(step_flags_of_nextRaises hr h).1] at hoff
      by_cases hc : c' = c
      · subst hc
        exact absurd hoff (errfAfterError_own c' s.errf)
      · rw [errfAfterError_other hc] at hoff
        exact absurd hoff hon
    · exact .inl hreset
    · rw [step_errf_of_wrStatus hop h] at hoff
      exact .inr ⟨d, hop, errfAfterClear_needs_mask _ _ c hon hoff⟩
    · exact absurd (hsame ▸ hoff) hon
  · obtain hr | hreset | hop | ⟨-, hsame⟩ := step_flags_cases h
    · exact .inl hr
    · exact .inr (.inl hreset)
    · exact .inr (.inr hop)
    · exact absurd hsame hne

/-- Settles O24: an access and a step append to `FRAMES_OUT` without looking at it. -/
theorem framesOutDoesNotInfluenceAnything : Obligations.FramesOutDoesNotInfluenceAnything :=
  fun _ _ l h => step_ignores_framesOut h l

/-- Settles O25: the two states differ only in the log and the pending inputs when the access begins, and an access ignores
both. -/
theorem anAccessDependsOnlyOnTheRecordAndTheWord : Obligations.AnAccessDependsOnlyOnTheRecordAndTheWord := by
  intro haw s s' t t' hsame hconfig h h'
  obtain ⟨u, newFrames, newWords, hu⟩ := access_ignoresHistory haw (s.beginStep s.pending)
  rw [beginStep_of_sameRecord hsame hconfig s.pending s'.pending] at h'
  cases (hu s.framesOut s.rdataLog s.pending).symm.trans h
  cases (hu _ _ _).symm.trans h'
  exact ⟨⟨rfl, rfl, rfl, rfl, rfl, rfl, rfl, rfl, rfl⟩, rfl, rfl, rfl⟩

/-- Settles O37: a register write repeats its value, LERP reads nothing that it writes, and the error record and the clear
find their work done. -/
theorem everyOperationButTheEmittingOnesIsIdempotent : Obligations.EveryOperationButTheEmittingOnesIsIdempotent :=
  fun _ _ _ _ hencode hlerpEnc h h' => exec_twice_sameRecord hencode hlerpEnc h h'

/-- Settles O43: of the operations only ENCODE and LERP_ENC touch FRAME, which `frame_out` shows. -/
theorem onlyEncodesTouchTheFrame : Obligations.OnlyEncodesTouchTheFrame := by
  intro i s t hencode hlerpEnc h
  obtain ⟨hstrobe, hout, hframe⟩ := exec_frame_of_not_encode hencode hlerpEnc h
  exact ⟨hframe, frameOut_congr hframe, hout, hstrobe⟩

end

section
/-! SUPPORT. The frame as a list, as its words and on the wire (10_state.md rules R29, R30, R34; 20_memory.md rule R53), and the
operands that a write keeps, as a read shows them. -/

namespace Sys2Proof.Machine

/-- A frame is its twelve bytes. -/
theorem frame_toList (f : Frame) :
    f.toList = [f[0], f[1], f[2], f[3], f[4], f[5], f[6], f[7], f[8], f[9], f[10], f[11]] := by
  have hsize : f.toList.length = 12 := f.length_toList
  apply List.ext_getElem (by simp)
  intro i hi _
  rw [hsize] at hi
  interval_cases i <;> simp

/-- A well-formed frame is the encoding of the color at its bytes 7, 6 and 5 (rule R148). -/
theorem eq_encodeFrame_of_wellFormed {f : Frame} (h : FrameWellFormed f) :
    f = encodeFrame { r := f[7], g := f[6], b := f[5] } := by
  obtain ⟨h0, h1, h2, h3, h4, h8, h9, h10, h11⟩ := h
  rw [← Vector.toList_inj, frame_toList f, encodeFrame_toList, h0, h1, h2, h3, h4, h8, h9, h10, h11]

/-- Bytes 5, 6 and 7 hold the color (rule R143). -/
theorem encodeFrame_injective {c c' : Color} (h : encodeFrame c = encodeFrame c') : c = c' := by
  have hb : c.b = c'.b := congrArg (fun f : Frame => f[5]) h
  have hg : c.g = c'.g := congrArg (fun f : Frame => f[6]) h
  have hr : c.r = c'.r := congrArg (fun f : Frame => f[7]) h
  cases c
  cases c'
  simp_all

theorem littleEndianBytes_append (b₃ b₂ b₁ b₀ : Byte) : littleEndianBytes (b₃ ++ b₂ ++ b₁ ++ b₀) = [b₀, b₁, b₂, b₃] := by
  simp only [littleEndianBytes, byteLane]
  simp [byteLanes_append]

theorem bigEndianBytes_append (b₃ b₂ b₁ b₀ : Byte) : bigEndianBytes (b₃ ++ b₂ ++ b₁ ++ b₀) = [b₃, b₂, b₁, b₀] := by
  simp only [bigEndianBytes, byteLane]
  simp [byteLanes_append]

/-- The markers of a well-formed frame, as the host reads them (10_state.md section 5). -/
theorem frameWords_of_wellFormed {f : Frame} (h : FrameWellFormed f) :
    frameWord0 f = 0x00000000 ∧ (frameWord1 f).extractLsb' 0 8 = 0xFF#8 ∧ frameWord2 f = 0xFFFFFFFF := by
  obtain ⟨h0, h1, h2, h3, h4, h8, h9, h10, h11⟩ := h
  refine ⟨?_, ?_, ?_⟩
  · rw [frameWord0, h0, h1, h2, h3]
    decide
  · exact (byteLanes_append f[7] f[6] f[5] f[4]).1.trans h4
  · rw [frameWord2, h8, h9, h10, h11]
    decide

/-- Counted from the most significant bit, `frame_out` is byte after byte of FRAME (rule R30). -/
theorem frameOut_getMsbD (s : State) {j b : Nat} (hj : j < 12) (hb : b < 8) :
    s.frameOut.getMsbD (8 * j + b) = s.frame[j].getMsbD b := by
  simp only [State.frameOut, BitVec.getMsbD_append]
  interval_cases j <;>
    simp (disch := omega) only [Nat.reduceMul, Nat.reduceAdd, Nat.add_sub_cancel_left, Nat.zero_add, if_pos, if_neg]

theorem frameOut_getLsbD (s : State) {k : Nat} (hk : k < 96) :
    s.frameOut.getLsbD (95 - k) = (s.frame[k / 8]'(by omega)).getLsbD (7 - k % 8) := by
  have h := frameOut_getMsbD s (j := k / 8) (b := k % 8) (by omega) (by omega)
  rw [Nat.div_add_mod, BitVec.getMsbD_eq_getLsbD, BitVec.getMsbD_eq_getLsbD] at h
  simpa [hk, Nat.mod_lt] using h

/-- A color register reads back as the DATA written to it without its upper byte (rules R75, R104). -/
theorem colorWord_colorOperand (d : Word) : colorWord (colorOperand d) = d &&& 0x00FFFFFF := by
  apply BitVec.eq_of_toNat_eq
  rw [colorWord_toNat, colorOperand, BitVec.extractLsb'_toNat, BitVec.toNat_and, Nat.shiftRight_zero]
  exact (Nat.and_two_pow_sub_one_eq_mod d.toNat 24).symm

/-- Clearing every flag leaves none (rule R103). -/
theorem errfAfterClear_all (e : Nibble) : errfAfterClear 0xF#4 e = 0 := BitVec.and_zero

/-- Clearing no flag keeps them (rule R103). -/
theorem errfAfterClear_none (e : Nibble) : errfAfterClear 0x0#4 e = e := BitVec.and_allOnes

/-- Two accesses in front are the first two steps of a run. -/
theorem run_two_operations {s t u : State} {i j : Instr} {rest : List HostInput}
    (hp : s.pending = .access (encode i) :: .access (encode j) :: rest)
    (hi : exec i (s.beginStep (.access (encode j) :: rest)) = .next t) (hj : exec j (t.beginStep rest) = .next u) :
    core.run 2 s = .next u := by
  have hfirst : step s = .next t := (step_access hp).trans ((access_of_decode_op (decode_encode i) _).trans hi)
  have hpending : t.pending = .access (encode j) :: rest := exec_pending hi
  have hsecond : step t = .next u := (step_access hpending).trans ((access_of_decode_op (decode_encode j) _).trans hj)
  rw [run_succ hfirst, run_succ hsecond]
  rfl

end Sys2Proof.Machine
end

section
/-! SUPPORT. The channel blend (42_interpolator.md sections 1 and 3, rules R161, R164, R168 and R169). -/

namespace Sys2Proof.Machine

/-- The signed form of the numerator (rule R164). -/
theorem lerpNumerator_signed (min max : Byte) {s T : Nat} (h : s ≤ T) :
    (lerpNumerator min max s T : Int) = (min.toNat : Int) * T + ((max.toNat : Int) - min.toNat) * s := by
  rw [lerpNumerator]
  push_cast [Nat.cast_sub h]
  ring

theorem lerpNumerator_symm (min max : Byte) {s T : Nat} (h : s ≤ T) :
    lerpNumerator min max s T = lerpNumerator max min (T - s) T := by
  rw [lerpNumerator, lerpNumerator, Nat.sub_sub_self h, Nat.add_comm]

theorem lerpNumerator_zero (min max : Byte) (T : Nat) : lerpNumerator min max 0 T = min.toNat * T := by
  simp [lerpNumerator]

theorem lerpNumerator_self (min : Byte) {s T : Nat} (h : s ≤ T) : lerpNumerator min min s T = min.toNat * T := by
  rw [lerpNumerator, ← Nat.mul_add, Nat.sub_add_cancel h]

/-- The numerator lies between `T` times a bound below both ends and `T` times a bound above both. -/
theorem lerpNumerator_between {min max : Byte} {s T lo hi : Nat} (h : s ≤ T) (hmin : lo ≤ min.toNat ∧ min.toNat ≤ hi)
    (hmax : lo ≤ max.toNat ∧ max.toNat ≤ hi) :
    lo * T ≤ lerpNumerator min max s T ∧ lerpNumerator min max s T ≤ hi * T := by
  have hsplit (x : Nat) : x * T = x * (T - s) + x * s := by rw [← Nat.mul_add, Nat.sub_add_cancel h]
  rw [lerpNumerator, hsplit, hsplit]
  exact ⟨Nat.add_le_add (Nat.mul_le_mul_right _ hmin.1) (Nat.mul_le_mul_right _ hmax.1),
    Nat.add_le_add (Nat.mul_le_mul_right _ hmin.2) (Nat.mul_le_mul_right _ hmax.2)⟩

/-- Toward a larger end the numerator grows with the step. -/
theorem lerpNumerator_mono {min max : Byte} {s s' T : Nat} (hs : s ≤ s') (h : s' ≤ T) (hle : min.toNat ≤ max.toNat) :
    lerpNumerator min max s T ≤ lerpNumerator min max s' T := by
  zify
  rw [lerpNumerator_signed min max (hs.trans h), lerpNumerator_signed min max h]
  gcongr
  omega

theorem lerp8_symm (min max : Byte) {s T : Nat} (h : s ≤ T) : lerp8 min max s T = lerp8 max min (T - s) T := by
  rw [lerp8, lerp8, lerpNumerator_symm min max h]

/-- A blend whose numerator is `v*T` is `v`. -/
theorem lerp8_eq_of_numerator {min max v : Byte} {s T : Nat} (hT : 1 ≤ T) (h : lerpNumerator min max s T = v.toNat * T) :
    lerp8 min max s T = v := by
  rw [lerp8, h, Nat.mul_div_cancel _ hT, BitVec.ofNat_toNat, BitVec.setWidth_eq]

/-- At step 0 a blend is its first end (rule R169). -/
theorem lerp8_zero (min max : Byte) {T : Nat} (hT : 1 ≤ T) : lerp8 min max 0 T = min :=
  lerp8_eq_of_numerator hT (lerpNumerator_zero min max T)

/-- At step `T` a blend is its second end (rule R169). -/
theorem lerp8_total (min max : Byte) {T : Nat} (hT : 1 ≤ T) : lerp8 min max T T = max := by
  rw [lerp8_symm min max le_rfl, Nat.sub_self, lerp8_zero max min hT]

/-- A blend of equal ends is constant (rule R169). -/
theorem lerp8_self (min : Byte) {s T : Nat} (hT : 1 ≤ T) (h : s ≤ T) : lerp8 min min s T = min :=
  lerp8_eq_of_numerator hT (lerpNumerator_self min h)

/-- A blend between bounds of its ends lies between them (rule R161). -/
theorem lerp8_between {min max : Byte} {s T lo hi : Nat} (hT : 1 ≤ T) (h : s ≤ T)
    (hmin : lo ≤ min.toNat ∧ min.toNat ≤ hi) (hmax : lo ≤ max.toNat ∧ max.toNat ≤ hi) :
    lo ≤ (lerp8 min max s T).toNat ∧ (lerp8 min max s T).toNat ≤ hi := by
  obtain ⟨hlo, hhi⟩ := lerpNumerator_between h hmin hmax
  rw [lerp8_toNat min max s T h]
  exact ⟨(Nat.le_div_iff_mul_le hT).mpr hlo, Nat.div_le_of_le_mul (Nat.mul_comm hi T ▸ hhi)⟩

/-- Toward a larger end a blend grows with the step (rule R169). -/
theorem lerp8_mono {min max : Byte} {s s' T : Nat} (hs : s ≤ s') (h : s' ≤ T) (hle : min.toNat ≤ max.toNat) :
    (lerp8 min max s T).toNat ≤ (lerp8 min max s' T).toNat := by
  rw [lerp8_toNat min max s T (hs.trans h), lerp8_toNat min max s' T h]
  exact Nat.div_le_div_right (lerpNumerator_mono hs h hle)

/-- The original software gives the exact value or one less (rule R168). -/
theorem lerpSrc_within_one {min max v : Byte} {s T : Nat} (h : LerpSrc min max s T v) :
    v.toNat ≤ (lerp8 min max s T).toNat ∧ (lerp8 min max s T).toNat ≤ v.toNat + 1 := by
  obtain rfl | ⟨-, -, hpos, rfl⟩ := h
  · exact ⟨le_rfl, Nat.le_succ _⟩
  · generalize lerp8 min max s T = e at hpos
    constructor <;> bv_omega

/-- A blend of two colors at step 0 is the first (rule R165). -/
theorem lerpColor_zero (c₀ c₁ : Color) {T : Nat} (hT : 1 ≤ T) : lerpColor c₀ c₁ 0 T = c₀ := by
  simp only [lerpColor, lerp8_zero _ _ hT]

/-- A blend of two colors at step `T` is the second (rule R165). -/
theorem lerpColor_total (c₀ c₁ : Color) {T : Nat} (hT : 1 ≤ T) : lerpColor c₀ c₁ T T = c₁ := by
  simp only [lerpColor, lerp8_total _ _ hT]

theorem lerpColor_self (c : Color) {s T : Nat} (hT : 1 ≤ T) (h : s ≤ T) : lerpColor c c s T = c := by
  simp only [lerpColor, lerp8_self _ hT h]

end Sys2Proof.Machine
end

section
/-! SUPPORT. The proofs of the statements about the frame and the registers as the host sees them (10_state.md sections 3 and 5,
20_memory.md sections 2 and 3, 40_host_access.md section 2, 41_frame_encoder.md). -/

open Sys2Proof Sys2Proof.Machine

/-- Settles O44: the encoding writes the markers itself and the color at bytes 5 to 7, and nothing else is in a frame. -/
theorem frameEncodingIsWellFormedAndInjective : Obligations.FrameEncodingIsWellFormedAndInjective :=
  ⟨fun c => ⟨encodeFrame_wellFormed c, rfl, rfl, rfl⟩, fun _ _ => encodeFrame_injective,
    fun _ => eq_encodeFrame_of_wellFormed⟩

/-- Settles O45: `frame_out` read from its most significant bit is FRAME byte after byte. -/
theorem frameOutStreamsByteZeroFirst : Obligations.FrameOutStreamsByteZeroFirst :=
  fun s _ hk => ⟨frameOut_getLsbD s hk, frameOut_getLsbD s hk⟩

/-- Settles O31: the invariant fixes the markers, and each word holds four frame bytes in a row, lowest byte last. -/
theorem frameWordsReadAsTheWireOrder : Obligations.FrameWordsReadAsTheWireOrder := by
  intro s ⟨_, hframe, _⟩
  obtain ⟨hword0, hword1, hword2⟩ := frameWords_of_wellFormed hframe
  refine ⟨?_, ?_, ?_, ?_, ?_⟩
  · rintro _ ⟨⟩
    exact hword0
  · rintro _ ⟨⟩
    exact hword1
  · rintro _ ⟨⟩
    exact hword2
  · simp only [List.flatMap_cons, List.flatMap_nil, frameWord0, frameWord1, frameWord2, littleEndianBytes_append,
      frame_toList]
    rfl
  · simp only [List.flatMap_cons, List.flatMap_nil, frameWord0, frameWord1, frameWord2, bigEndianBytes_append]
    rfl

/-- Settles O32: the first step stores the operand and the second returns the register it was stored in. -/
theorem whatIsWrittenIsReadBack : Obligations.WhatIsWrittenIsReadBack := by
  intro s d rest hconfig
  have hcolor := colorWord_colorOperand d
  have hstep : (stepWord (stepOperand s.config.stepW d)).toNat = d.toNat % 2 ^ s.config.stepW := by
    rw [stepWord_toNat, stepOperand_toNat hconfig.2]
  simp only [List.forall_mem_cons]
  refine ⟨⟨fun hp => ?_, fun hp => ?_, fun hp => ?_, nofun⟩, ⟨fun hp => ?_, fun hp => ?_, nofun⟩⟩
  · exact ⟨_, run_two_operations hp rfl rfl, hcolor⟩
  · exact ⟨_, run_two_operations hp rfl rfl, hcolor⟩
  · exact ⟨_, run_two_operations hp rfl rfl, hcolor⟩
  · exact ⟨_, run_two_operations hp rfl rfl, hstep⟩
  · exact ⟨_, run_two_operations hp rfl rfl, hstep⟩

/-- Settles O36: a clear of all flags leaves none, and a clear of none keeps them; then the invariant's FIRST_CAUSE is already
0 when no flag is set. -/
theorem statusClearOfAllAndOfNone : Obligations.StatusClearOfAllAndOfNone := by
  intro s d ⟨_, _, _, _, ⟨hcause, _⟩, _⟩
  refine ⟨fun hall => ?_, fun hnone => ?_⟩
  · rw [exec_wrStatus, clearMask, hall, State.clearErrors, firstCauseAfterClear, errfAfterClear_all, if_pos rfl]
  · have hfirst : (if s.errf = 0b0000 then 0 else s.firstCause) = s.firstCause :=
      ite_eq_right_iff.mpr fun herrf => (hcause.mpr herrf).symm
    rw [exec_wrStatus, clearMask, hnone, State.clearErrors, firstCauseAfterClear, errfAfterClear_none, hfirst]

end

section
/-! SUPPORT. The proofs of the statements about the blend in 42_interpolator.md. -/

open Sys2Proof Sys2Proof.Machine

/-- Settles O41: the blend meets its ends and is constant on equal ones, and packing undoes unpacking. -/
theorem lerpReachesBothEndpointsExactly : Obligations.LerpReachesBothEndpointsExactly := by
  intro s hT
  have hpos : 1 ≤ s.totalReg.toNat := Nat.one_le_iff_ne_zero.mpr hT
  have hlerp (v : Rgb) (hle : s.stepReg.toNat ≤ s.totalReg.toNat) (hv : s.interpolated = v) :
      exec .lerp s = .next { s with colorReg := v } := hv ▸ exec_lerp_of_legal ⟨hT, hle⟩
  refine ⟨fun hzero => hlerp _ (by omega) ?_, fun htotal => hlerp _ (by rw [htotal]) ?_, fun heq hle => hlerp _ hle ?_⟩
  · rw [State.interpolated, hzero, lerpColor_zero _ _ hpos, pack_unpack]
  · rw [State.interpolated, htotal, lerpColor_total _ _ hpos, pack_unpack]
  · rw [State.interpolated, ← heq, lerpColor_self _ hpos hle, pack_unpack]

/-- Settles O46: the quotient fits a byte, so it is the floor, and the numerator lies between `T` times its ends. -/
theorem channelBlendIsTheExactFloorBetweenItsEnds : Obligations.ChannelBlendIsTheExactFloorBetweenItsEnds := by
  intro min max s T hT h
  obtain ⟨hlo, hhi⟩ := lerp8_between hT h ⟨Nat.min_le_left min.toNat max.toNat, Nat.le_max_left min.toNat max.toNat⟩
    ⟨Nat.min_le_right min.toNat max.toNat, Nat.le_max_right min.toNat max.toNat⟩
  rw [lerp8_toNat min max s T h] at *
  exact ⟨Nat.div_mul_le_self _ _, Nat.lt_mul_of_div_lt (Nat.lt_succ_self _) hT, hlo, hhi⟩

/-- Settles O47: the ends and the equal ends fix the numerator; toward a smaller `max` the blend is the symmetric one. -/
theorem channelBlendIsMonotoneAndSymmetric : Obligations.ChannelBlendIsMonotoneAndSymmetric := by
  intro min max T hT
  refine ⟨lerp8_zero min max hT, lerp8_total min max hT, fun s s' hs h hle => lerp8_mono hs h hle, fun s s' hs h hle => ?_,
    fun s h => ⟨lerp8_symm min max h, lerp8_self min hT h⟩⟩
  rw [lerp8_symm min max (hs.trans h), lerp8_symm min max h]
  exact lerp8_mono (by omega) (by omega) hle

/-- Settles O48: `255*T` is below `2^8 * 2^w`. -/
theorem blendNumeratorFitsItsWidth : Obligations.BlendNumeratorFitsItsWidth := by
  intro min max w s T hT h
  have hle := lerpNumerator_le min max s T h
  refine ⟨hle, ?_, lerpNumerator_signed min max h⟩
  rw [Nat.pow_add]
  omega

/-- Settles O49: the software is within one of the blend, which meets its ends; at step 0 it is the blend itself. -/
theorem softwareEnvelopeStaysWithinOne : Obligations.SoftwareEnvelopeStaysWithinOne := by
  intro min max v T hT
  refine ⟨fun hsrc => ?_, fun hsrc => ?_, fun s _ hsrc => lerpSrc_within_one hsrc⟩
  · obtain rfl | ⟨hne, -⟩ := hsrc
    · exact lerp8_zero min max hT
    · exact absurd rfl hne
  · simpa only [lerp8_total min max hT] using lerpSrc_within_one hsrc

end
